-- ==== Sys2Proof/Word.lean ====
section
/-! DEFINITION. The bit-vector types of the machine (spec/00_scope.md R10). -/

namespace Sys2Proof

/-- A 32-bit word: a register, an address, an ARM instruction. -/
abbrev Word := BitVec 32

/-- A 16-bit halfword. -/
abbrev Half := BitVec 16

/-- An 8-bit byte. -/
abbrev Byte := BitVec 8

/-- A 4-bit register number, r0 to r15. -/
abbrev Reg := BitVec 4

/-- A 3-bit register number of a Thumb instruction, r0 to r7. -/
abbrev LowReg := BitVec 3

/-- A processor mode number `M[4:0]` (spec/10_state.md R50). -/
abbrev ModeBits := BitVec 5

end Sys2Proof
end

