-- ==== Sys2Proof/Machine/Bits.lean ====
section
/-! DEFINITION. Bit fields, sign extension and rotation: what the decoder, the encoder and the meanings use. -/

namespace Sys2Proof

/-- Shift `w` up by the width of `x` and put `x` in the low bits: an instruction word is written field by
field from its top field down. -/
def push {N n : Nat} (w : BitVec N) (x : BitVec n) : BitVec N := (w <<< n) ||| x.setWidth N

/-- The `l`-bit field of `w` whose lowest bit is bit `s`. -/
def fld {N : Nat} (s l : Nat) (w : BitVec N) : BitVec l := w.extractLsb' s l

/-- Bit `i` of `w`. -/
def flag {N : Nat} (i : Nat) (w : BitVec N) : Bool := w.getLsbD i

/-- A one-bit field. -/
def bit (b : Bool) : BitVec 1 := BitVec.ofBool b

/-- `sext_N` of 00_scope.md R13. -/
def sext {n : Nat} (v : BitVec n) : Word := v.signExtend 32

/-- `zext_N` of 00_scope.md R13. -/
def zext {n : Nat} (v : BitVec n) : Word := v.setWidth 32

/-- `w` with bit `i` set to `b`. -/
def setBit (w : Word) (i : Nat) (b : Bool) : Word :=
  if b then w ||| BitVec.twoPow 32 i else w &&& ~~~(BitVec.twoPow 32 i)

/-- The low register of a Thumb instruction as a register number. -/
def lowReg (r : LowReg) : Reg := r.setWidth 4

/-- The register `H:r` of a Thumb high-register instruction (47_thumb_data_processing.md section 5). -/
def highReg (h : Bool) (r : LowReg) : Reg := bit h ++ r

/-- The registers a list names, in ascending order (44_arm_load_store_multiple.md R342). -/
def listedRegs {n : Nat} (list : BitVec n) : List Reg :=
  ((List.range n).filter (fun i => list.getLsbD i)).map (BitVec.ofNat 4)

end Sys2Proof
end

