-- ==== Sys2Proof/Syntax.lean ====
section
/-! DEFINITION. The abstract syntax of the ARM and Thumb instructions (spec/30_encoding.md). -/

namespace Sys2Proof

/-- The condition field (30_encoding.md R134); 1111 is not a condition (R135). -/
inductive Cond where
  | eq | ne | cs | cc | mi | pl | vs | vc | hi | ls | ge | lt | gt | le | al
  deriving DecidableEq, Repr

/-- The four bits of a condition. -/
def Cond.bits : Cond → BitVec 4
  | .eq => 0 | .ne => 1 | .cs => 2 | .cc => 3 | .mi => 4 | .pl => 5 | .vs => 6 | .vc => 7
  | .hi => 8 | .ls => 9 | .ge => 10 | .lt => 11 | .gt => 12 | .le => 13 | .al => 14

/-- A shift type, bits 6:5 (R137). -/
inductive ShiftKind where
  | lsl | lsr | asr | ror
  deriving DecidableEq, Repr

/-- The two bits of a shift type. -/
def ShiftKind.bits : ShiftKind → BitVec 2
  | .lsl => 0 | .lsr => 1 | .asr => 2 | .ror => 3

/-- The second operand `<Oprnd2>` (R137, R151, R152, R153): a rotated immediate, a register shifted by an
immediate, a register shifted by a register. -/
inductive Operand2 where
  | imm (rot : BitVec 4) (imm8 : BitVec 8)
  | shiftImm (amount : BitVec 5) (kind : ShiftKind) (rm : Reg)
  | shiftReg (rs : Reg) (kind : ShiftKind) (rm : Reg)
  deriving DecidableEq, Repr

/-- The offset of addressing mode 2 (R142): `offset12`, or a register shifted by an immediate. -/
inductive Offset2 where
  | imm (offset12 : BitVec 12)
  | reg (amount : BitVec 5) (kind : ShiftKind) (rm : Reg)
  deriving DecidableEq, Repr

/-- The offset of addressing mode 3 (R140): `immH:immL`, or a register (bits 11:8 should be zero). -/
inductive Offset3 where
  | imm (imm8 : BitVec 8)
  | reg (sbz : BitVec 4) (rm : Reg)
  deriving DecidableEq, Repr

/-- The index modes of addressing modes 2 and 3 (43_arm_load_store.md R292), as P and W select them. -/
inductive Index where
  /-- P = 1, W = 0: `[Rn, offset]`. -/
  | offset
  /-- P = 1, W = 1: `[Rn, offset]!`. -/
  | preIndexed
  /-- P = 0, W = 0: `[Rn], offset`. -/
  | postIndexed
  /-- P = 0, W = 1: in mode 3 UNPREDICTABLE; in mode 2 the T instructions, rows of their own. -/
  | postWriteback
  deriving DecidableEq, Repr

/-- Bit 24. -/
def Index.p : Index → BitVec 1
  | .offset => 1 | .preIndexed => 1 | .postIndexed => 0 | .postWriteback => 0

/-- Bit 21. -/
def Index.w : Index → BitVec 1
  | .offset => 0 | .preIndexed => 1 | .postIndexed => 0 | .postWriteback => 1

/-- Addressing mode 4 (44_arm_load_store_multiple.md R341). -/
inductive BlockMode where
  /-- Increment after: P = 0, U = 1. -/
  | ia
  /-- Increment before: P = 1, U = 1. -/
  | ib
  /-- Decrement after: P = 0, U = 0. -/
  | da
  /-- Decrement before: P = 1, U = 0. -/
  | db
  deriving DecidableEq, Repr

/-- Bit 24. -/
def BlockMode.p : BlockMode → BitVec 1
  | .ia => 0 | .ib => 1 | .da => 0 | .db => 1

/-- Bit 23. -/
def BlockMode.u : BlockMode → BitVec 1
  | .ia => 1 | .ib => 1 | .da => 0 | .db => 0

/-- One constructor per row of spec/opcode_table.json, in its order: the ARM rows, then the Thumb rows (names
beginning with t). A field the spec calls SBZ or SBO is kept as an operand (entry 26). -/
inductive Instr where
  /-- ARM `PLD`: cache hint (43_arm_load_store.md R330). -/
  | pld (i u : Bool) (rn : Reg) (addrMode : BitVec 12)
  /-- ARM `BLX`: branch with link to Thumb code (42_arm_branch.md R273). -/
  | blxImm (h : Bool) (imm24 : BitVec 24)
  /-- ARM `UNALLOCATED_UNCOND_COPROC_EXT`: unallocated: the `LDC2`/`STC2` layout with P = U = W = 0 (30_encoding.md R177). -/
  | unallocUncondCop (n : Bool) (rest : BitVec 21)
  /-- ARM `LDC2`: unconditional coprocessor load (46_arm_coprocessor.md R408). -/
  | ldc2 (p u n w : Bool) (rn : Reg) (crd cp : BitVec 4) (offset8 : BitVec 8)
  /-- ARM `STC2`: unconditional coprocessor store (46_arm_coprocessor.md R408). -/
  | stc2 (p u n w : Bool) (rn : Reg) (crd cp : BitVec 4) (offset8 : BitVec 8)
  /-- ARM `CDP2`: unconditional coprocessor data operation (46_arm_coprocessor.md R408). -/
  | cdp2 (op1 crn crd cp : BitVec 4) (op2 : BitVec 3) (crm : BitVec 4)
  /-- ARM `MCR2`: unconditional move to coprocessor (46_arm_coprocessor.md R408). -/
  | mcr2 (op1 : BitVec 3) (crn : BitVec 4) (rd : Reg) (cp : BitVec 4) (op2 : BitVec 3) (crm : BitVec 4)
  /-- ARM `MRC2`: unconditional move from coprocessor (46_arm_coprocessor.md R408). -/
  | mrc2 (op1 : BitVec 3) (crn : BitVec 4) (rd : Reg) (cp : BitVec 4) (op2 : BitVec 3) (crm : BitVec 4)
  /-- ARM `UNALLOCATED_UNCOND`: every other word with bits 31:28 = 1111 (30_encoding.md R135). -/
  | unallocUncond (bits : BitVec 28)
  /-- ARM `NOP__0xE320F000`: the guaranteed no-operation word (45_arm_status_swi_bkpt.md R376). -/
  | nop
  /-- ARM `MUL`: multiply (41_arm_multiply_dsp.md R232). -/
  | mul (c : Cond) (sf : Bool) (rd : Reg) (sbz : BitVec 4) (rs rm : Reg)
  /-- ARM `MLA`: multiply accumulate (41_arm_multiply_dsp.md R233). -/
  | mla (c : Cond) (sf : Bool) (rd rn rs rm : Reg)
  /-- ARM `UMULL`: unsigned long multiply (41_arm_multiply_dsp.md R234). -/
  | umull (c : Cond) (sf : Bool) (rdHi rdLo rs rm : Reg)
  /-- ARM `UMLAL`: unsigned long multiply accumulate (41_arm_multiply_dsp.md R235). -/
  | umlal (c : Cond) (sf : Bool) (rdHi rdLo rs rm : Reg)
  /-- ARM `SMULL`: signed long multiply (41_arm_multiply_dsp.md R237). -/
  | smull (c : Cond) (sf : Bool) (rdHi rdLo rs rm : Reg)
  /-- ARM `SMLAL`: signed long multiply accumulate (41_arm_multiply_dsp.md R238). -/
  | smlal (c : Cond) (sf : Bool) (rdHi rdLo rs rm : Reg)
  /-- ARM `SWP`: swap word (44_arm_load_store_multiple.md R360). -/
  | swp (c : Cond) (rn rd : Reg) (sbz : BitVec 4) (rm : Reg)
  /-- ARM `SWPB`: swap byte (44_arm_load_store_multiple.md R361). -/
  | swpb (c : Cond) (rn rd : Reg) (sbz : BitVec 4) (rm : Reg)
  /-- ARM `UNALLOCATED_MUL_SWP_EXT`: unallocated words of the multiply and swap space (30_encoding.md R177). -/
  | unallocMulSwp (c : Cond) (op : BitVec 5) (mid : BitVec 12) (low : BitVec 4)
  /-- ARM `STRH`: store halfword (43_arm_load_store.md R324). -/
  | strh (c : Cond) (u : Bool) (idx : Index) (rn rd : Reg) (off : Offset3)
  /-- ARM `LDRD`: load doubleword (43_arm_load_store.md R307). -/
  | ldrd (c : Cond) (u : Bool) (idx : Index) (rn rd : Reg) (off : Offset3)
  /-- ARM `STRD`: store doubleword (43_arm_load_store.md R325). -/
  | strd (c : Cond) (u : Bool) (idx : Index) (rn rd : Reg) (off : Offset3)
  /-- ARM `LDRH`: load halfword (43_arm_load_store.md R304). -/
  | ldrh (c : Cond) (u : Bool) (idx : Index) (rn rd : Reg) (off : Offset3)
  /-- ARM `LDRSB`: load signed byte (43_arm_load_store.md R305). -/
  | ldrsb (c : Cond) (u : Bool) (idx : Index) (rn rd : Reg) (off : Offset3)
  /-- ARM `LDRSH`: load signed halfword (43_arm_load_store.md R306). -/
  | ldrsh (c : Cond) (u : Bool) (idx : Index) (rn rd : Reg) (off : Offset3)
  /-- ARM `MRS`: move a PSR to a register (45_arm_status_swi_bkpt.md R371). -/
  | mrs (c : Cond) (r : Bool) (sbo : BitVec 4) (rd : Reg) (sbz1 sbz2 : BitVec 4)
  /-- ARM `MSR__register`: move a register to a PSR (45_arm_status_swi_bkpt.md R372). -/
  | msrReg (c : Cond) (r : Bool) (mask sbo sbz : BitVec 4) (rm : Reg)
  /-- ARM `BX`: branch and exchange (42_arm_branch.md R272). -/
  | bx (c : Cond) (sbo : BitVec 12) (rm : Reg)
  /-- ARM `BLX__register`: branch, link and exchange to a register (42_arm_branch.md R274). -/
  | blxReg (c : Cond) (sbo : BitVec 12) (rm : Reg)
  /-- ARM `CLZ`: count leading zeros (40_arm_data_processing.md R213). -/
  | clz (c : Cond) (sbo1 : BitVec 4) (rd : Reg) (sbo2 : BitVec 4) (rm : Reg)
  /-- ARM `QADD`: saturating add (41_arm_multiply_dsp.md R240). -/
  | qadd (c : Cond) (rn rd : Reg) (sbz : BitVec 4) (rm : Reg)
  /-- ARM `QSUB`: saturating subtract (41_arm_multiply_dsp.md R241). -/
  | qsub (c : Cond) (rn rd : Reg) (sbz : BitVec 4) (rm : Reg)
  /-- ARM `QDADD`: saturating double and add (41_arm_multiply_dsp.md R242). -/
  | qdadd (c : Cond) (rn rd : Reg) (sbz : BitVec 4) (rm : Reg)
  /-- ARM `QDSUB`: saturating double and subtract (41_arm_multiply_dsp.md R243). -/
  | qdsub (c : Cond) (rn rd : Reg) (sbz : BitVec 4) (rm : Reg)
  /-- ARM `BKPT`: software breakpoint (45_arm_status_swi_bkpt.md R375). -/
  | bkpt (c : Cond) (immHi : BitVec 12) (immLo : BitVec 4)
  /-- ARM `SMLAxy`: 16 x 16 multiply accumulate (41_arm_multiply_dsp.md R246). -/
  | smlaXY (c : Cond) (rd rn rs : Reg) (y x : Bool) (rm : Reg)
  /-- ARM `SMLAWy`: 32 x 16 multiply accumulate (41_arm_multiply_dsp.md R248). -/
  | smlawY (c : Cond) (rd rn rs : Reg) (y : Bool) (rm : Reg)
  /-- ARM `SMULWy`: 32 x 16 multiply (41_arm_multiply_dsp.md R247). -/
  | smulwY (c : Cond) (rd : Reg) (sbz : BitVec 4) (rs : Reg) (y : Bool) (rm : Reg)
  /-- ARM `SMLALxy`: 16 x 16 multiply, 64-bit accumulate (41_arm_multiply_dsp.md R249). -/
  | smlalXY (c : Cond) (rdHi rdLo rs : Reg) (y x : Bool) (rm : Reg)
  /-- ARM `SMULxy`: 16 x 16 multiply (41_arm_multiply_dsp.md R245). -/
  | smulXY (c : Cond) (rd : Reg) (sbz : BitVec 4) (rs : Reg) (y x : Bool) (rm : Reg)
  /-- ARM `UNALLOCATED_MISC`: unallocated words of the miscellaneous space (30_encoding.md R177). -/
  | unallocMisc (c : Cond) (op : BitVec 2) (mid : BitVec 12) (lo low : BitVec 4)
  /-- ARM `MSR__immediate`: move an immediate to a PSR (45_arm_status_swi_bkpt.md R373). -/
  | msrImm (c : Cond) (r : Bool) (mask sbo rot : BitVec 4) (imm8 : BitVec 8)
  /-- ARM `UNALLOCATED_00110x00`: unallocated: bits 27:23 = 00110 with bits 21:20 = 00 (30_encoding.md R177). -/
  | unalloc00110 (c : Cond) (r : Bool) (rest : BitVec 20)
  /-- ARM `AND`: AND (40_arm_data_processing.md R197). -/
  | armAnd (c : Cond) (sf : Bool) (rn rd : Reg) (op2 : Operand2)
  /-- ARM `EOR`: exclusive OR (40_arm_data_processing.md R198). -/
  | armEor (c : Cond) (sf : Bool) (rn rd : Reg) (op2 : Operand2)
  /-- ARM `SUB`: subtract (40_arm_data_processing.md R199). -/
  | armSub (c : Cond) (sf : Bool) (rn rd : Reg) (op2 : Operand2)
  /-- ARM `RSB`: reverse subtract (40_arm_data_processing.md R200). -/
  | armRsb (c : Cond) (sf : Bool) (rn rd : Reg) (op2 : Operand2)
  /-- ARM `ADD`: add (40_arm_data_processing.md R201). -/
  | armAdd (c : Cond) (sf : Bool) (rn rd : Reg) (op2 : Operand2)
  /-- ARM `ADC`: add with carry (40_arm_data_processing.md R202). -/
  | armAdc (c : Cond) (sf : Bool) (rn rd : Reg) (op2 : Operand2)
  /-- ARM `SBC`: subtract with carry (40_arm_data_processing.md R203). -/
  | armSbc (c : Cond) (sf : Bool) (rn rd : Reg) (op2 : Operand2)
  /-- ARM `RSC`: reverse subtract with carry (40_arm_data_processing.md R204). -/
  | armRsc (c : Cond) (sf : Bool) (rn rd : Reg) (op2 : Operand2)
  /-- ARM `TST`: test (40_arm_data_processing.md R205). -/
  | armTst (c : Cond) (rn : Reg) (sbz : BitVec 4) (op2 : Operand2)
  /-- ARM `TEQ`: test equivalence (40_arm_data_processing.md R206). -/
  | armTeq (c : Cond) (rn : Reg) (sbz : BitVec 4) (op2 : Operand2)
  /-- ARM `CMP`: compare (40_arm_data_processing.md R207). -/
  | armCmp (c : Cond) (rn : Reg) (sbz : BitVec 4) (op2 : Operand2)
  /-- ARM `CMN`: compare negative (40_arm_data_processing.md R208). -/
  | armCmn (c : Cond) (rn : Reg) (sbz : BitVec 4) (op2 : Operand2)
  /-- ARM `ORR`: OR (40_arm_data_processing.md R209). -/
  | armOrr (c : Cond) (sf : Bool) (rn rd : Reg) (op2 : Operand2)
  /-- ARM `MOV`: move (40_arm_data_processing.md R210). -/
  | armMov (c : Cond) (sf : Bool) (sbz : BitVec 4) (rd : Reg) (op2 : Operand2)
  /-- ARM `BIC`: bit clear (40_arm_data_processing.md R211). -/
  | armBic (c : Cond) (sf : Bool) (rn rd : Reg) (op2 : Operand2)
  /-- ARM `MVN`: move NOT (40_arm_data_processing.md R212). -/
  | armMvn (c : Cond) (sf : Bool) (sbz : BitVec 4) (rd : Reg) (op2 : Operand2)
  /-- ARM `UNDEFINED__architecturally_undefined_space`: the architecturally undefined space (30_encoding.md R143). -/
  | undefArm (c : Cond) (high : BitVec 20) (low : BitVec 4)
  /-- ARM `LDRT`: load word, User privilege (43_arm_load_store.md R302). -/
  | ldrt (c : Cond) (u : Bool) (rn rd : Reg) (off : Offset2)
  /-- ARM `LDRBT`: load byte, User privilege (43_arm_load_store.md R303). -/
  | ldrbt (c : Cond) (u : Bool) (rn rd : Reg) (off : Offset2)
  /-- ARM `STRT`: store word, User privilege (43_arm_load_store.md R322). -/
  | strt (c : Cond) (u : Bool) (rn rd : Reg) (off : Offset2)
  /-- ARM `STRBT`: store byte, User privilege (43_arm_load_store.md R323). -/
  | strbt (c : Cond) (u : Bool) (rn rd : Reg) (off : Offset2)
  /-- ARM `LDR`: load word (43_arm_load_store.md R300). -/
  | ldr (c : Cond) (u : Bool) (idx : Index) (rn rd : Reg) (off : Offset2)
  /-- ARM `LDRB`: load byte (43_arm_load_store.md R301). -/
  | ldrb (c : Cond) (u : Bool) (idx : Index) (rn rd : Reg) (off : Offset2)
  /-- ARM `STR`: store word (43_arm_load_store.md R320). -/
  | str (c : Cond) (u : Bool) (idx : Index) (rn rd : Reg) (off : Offset2)
  /-- ARM `STRB`: store byte (43_arm_load_store.md R321). -/
  | strb (c : Cond) (u : Bool) (idx : Index) (rn rd : Reg) (off : Offset2)
  /-- ARM `LDM__1`: load multiple (44_arm_load_store_multiple.md R345). -/
  | ldm1 (c : Cond) (mode : BlockMode) (w : Bool) (rn : Reg) (list : BitVec 16)
  /-- ARM `LDM__2__user_registers`: load multiple, User-mode registers (44_arm_load_store_multiple.md R346). -/
  | ldm2 (c : Cond) (mode : BlockMode) (w : Bool) (rn : Reg) (list : BitVec 15)
  /-- ARM `LDM__3__restore_CPSR`: load multiple with r15 and restore the CPSR; `list` holds r0 to r14 (44_arm_load_store_multiple.md R347). -/
  | ldm3 (c : Cond) (mode : BlockMode) (w : Bool) (rn : Reg) (list : BitVec 15)
  /-- ARM `STM__1`: store multiple (44_arm_load_store_multiple.md R350). -/
  | stm1 (c : Cond) (mode : BlockMode) (w : Bool) (rn : Reg) (list : BitVec 16)
  /-- ARM `STM__2__user_registers`: store multiple, User-mode registers (44_arm_load_store_multiple.md R351). -/
  | stm2 (c : Cond) (mode : BlockMode) (w : Bool) (rn : Reg) (list : BitVec 16)
  /-- ARM `B`: branch (42_arm_branch.md R270). -/
  | b (c : Cond) (imm24 : BitVec 24)
  /-- ARM `BL`: branch with link (42_arm_branch.md R271). -/
  | bl (c : Cond) (imm24 : BitVec 24)
  /-- ARM `MCRR`: move two registers to a coprocessor (46_arm_coprocessor.md R403). -/
  | mcrr (c : Cond) (rn rd : Reg) (cp opc crm : BitVec 4)
  /-- ARM `MRRC`: move two registers from a coprocessor (46_arm_coprocessor.md R404). -/
  | mrrc (c : Cond) (rn rd : Reg) (cp opc crm : BitVec 4)
  /-- ARM `UNDEFINED__coprocessor_space__P_U_N_W___0000`: coprocessor space with P, U, N, W = 0: unallocated (30_encoding.md R177). -/
  | unallocCop (c : Cond) (rest : BitVec 21)
  /-- ARM `LDC`: coprocessor load (46_arm_coprocessor.md R405). -/
  | ldc (c : Cond) (p u n w : Bool) (rn : Reg) (crd cp : BitVec 4) (offset8 : BitVec 8)
  /-- ARM `STC`: coprocessor store (46_arm_coprocessor.md R406). -/
  | stc (c : Cond) (p u n w : Bool) (rn : Reg) (crd cp : BitVec 4) (offset8 : BitVec 8)
  /-- ARM `CDP`: coprocessor data operation (46_arm_coprocessor.md R400). -/
  | cdp (c : Cond) (op1 crn crd cp : BitVec 4) (op2 : BitVec 3) (crm : BitVec 4)
  /-- ARM `MCR`: move to coprocessor (46_arm_coprocessor.md R401). -/
  | mcr (c : Cond) (op1 : BitVec 3) (crn : BitVec 4) (rd : Reg) (cp : BitVec 4) (op2 : BitVec 3) (crm : BitVec 4)
  /-- ARM `MRC`: move from coprocessor (46_arm_coprocessor.md R402). -/
  | mrc (c : Cond) (op1 : BitVec 3) (crn : BitVec 4) (rd : Reg) (cp : BitVec 4) (op2 : BitVec 3) (crm : BitVec 4)
  /-- ARM `SWI`: software interrupt (45_arm_status_swi_bkpt.md R374). -/
  | armSwi (c : Cond) (imm24 : BitVec 24)
  /-- Thumb `LSL__immediate`: shift left by an immediate (47_thumb_data_processing.md R432). -/
  | tLslImm (imm5 : BitVec 5) (rs rd : LowReg)
  /-- Thumb `LSR__immediate`: logical shift right by an immediate (47_thumb_data_processing.md R433). -/
  | tLsrImm (imm5 : BitVec 5) (rs rd : LowReg)
  /-- Thumb `ASR__immediate`: arithmetic shift right by an immediate (47_thumb_data_processing.md R434). -/
  | tAsrImm (imm5 : BitVec 5) (rs rd : LowReg)
  /-- Thumb `ADD__register`: add (47_thumb_data_processing.md R435). -/
  | tAddReg (rn rs rd : LowReg)
  /-- Thumb `SUB__register`: subtract (47_thumb_data_processing.md R436). -/
  | tSubReg (rn rs rd : LowReg)
  /-- Thumb `ADD__3-bit_immediate`: add a 3-bit immediate (47_thumb_data_processing.md R437). -/
  | tAddImm3 (imm3 : BitVec 3) (rs rd : LowReg)
  /-- Thumb `SUB__3-bit_immediate`: subtract a 3-bit immediate (47_thumb_data_processing.md R438). -/
  | tSubImm3 (imm3 : BitVec 3) (rs rd : LowReg)
  /-- Thumb `MOV__immediate`: move an immediate (47_thumb_data_processing.md R439). -/
  | tMovImm (rd : LowReg) (imm8 : BitVec 8)
  /-- Thumb `CMP__immediate`: compare with an immediate (47_thumb_data_processing.md R440). -/
  | tCmpImm (rd : LowReg) (imm8 : BitVec 8)
  /-- Thumb `ADD__8-bit_immediate`: add an 8-bit immediate (47_thumb_data_processing.md R441). -/
  | tAddImm8 (rd : LowReg) (imm8 : BitVec 8)
  /-- Thumb `SUB__8-bit_immediate`: subtract an 8-bit immediate (47_thumb_data_processing.md R442). -/
  | tSubImm8 (rd : LowReg) (imm8 : BitVec 8)
  /-- Thumb `AND`: AND (47_thumb_data_processing.md R443). -/
  | tAnd (rs rd : LowReg)
  /-- Thumb `EOR`: exclusive OR (47_thumb_data_processing.md R444). -/
  | tEor (rs rd : LowReg)
  /-- Thumb `LSL__register`: shift left by a register (47_thumb_data_processing.md R445). -/
  | tLslReg (rs rd : LowReg)
  /-- Thumb `LSR__register`: logical shift right by a register (47_thumb_data_processing.md R446). -/
  | tLsrReg (rs rd : LowReg)
  /-- Thumb `ASR__register`: arithmetic shift right by a register (47_thumb_data_processing.md R447). -/
  | tAsrReg (rs rd : LowReg)
  /-- Thumb `ADC`: add with carry (47_thumb_data_processing.md R448). -/
  | tAdc (rs rd : LowReg)
  /-- Thumb `SBC`: subtract with carry (47_thumb_data_processing.md R449). -/
  | tSbc (rs rd : LowReg)
  /-- Thumb `ROR`: rotate right by a register (47_thumb_data_processing.md R450). -/
  | tRor (rs rd : LowReg)
  /-- Thumb `TST`: test (47_thumb_data_processing.md R451). -/
  | tTst (rs rd : LowReg)
  /-- Thumb `NEG`: negate (47_thumb_data_processing.md R452). -/
  | tNeg (rs rd : LowReg)
  /-- Thumb `CMP__register`: compare (47_thumb_data_processing.md R453). -/
  | tCmpReg (rs rd : LowReg)
  /-- Thumb `CMN`: compare negative (47_thumb_data_processing.md R454). -/
  | tCmn (rs rd : LowReg)
  /-- Thumb `ORR`: OR (47_thumb_data_processing.md R455). -/
  | tOrr (rs rd : LowReg)
  /-- Thumb `MUL`: multiply (47_thumb_data_processing.md R456). -/
  | tMul (rs rd : LowReg)
  /-- Thumb `BIC`: bit clear (47_thumb_data_processing.md R457). -/
  | tBic (rs rd : LowReg)
  /-- Thumb `MVN`: move NOT (47_thumb_data_processing.md R458). -/
  | tMvn (rs rd : LowReg)
  /-- Thumb `ADD__high_registers`: add, high registers (47_thumb_data_processing.md R470). -/
  | tAddHigh (h1 h2 : Bool) (rs rd : LowReg)
  /-- Thumb `CMP__high_registers`: compare, high registers (47_thumb_data_processing.md R471). -/
  | tCmpHigh (h1 h2 : Bool) (rs rd : LowReg)
  /-- Thumb `MOV__high_registers`: move, high registers (47_thumb_data_processing.md R472). -/
  | tMovHigh (h1 h2 : Bool) (rs rd : LowReg)
  /-- Thumb `BX`: branch and exchange; `rs` is H2:Rs (48_thumb_branch_load_store.md R522). -/
  | tBx (rs : Reg) (sbz : BitVec 3)
  /-- Thumb `BLX__register`: branch, link and exchange; `rs` is H2:Rs (48_thumb_branch_load_store.md R523). -/
  | tBlxReg (rs : Reg) (sbz : BitVec 3)
  /-- Thumb `LDR__PC-relative`: load word, PC-relative (48_thumb_branch_load_store.md R491). -/
  | tLdrPc (rd : LowReg) (imm8 : BitVec 8)
  /-- Thumb `STR__register_offset`: store word, register offset (48_thumb_branch_load_store.md R492). -/
  | tStrReg (ro rb rd : LowReg)
  /-- Thumb `STRH__register_offset`: store halfword, register offset (48_thumb_branch_load_store.md R493). -/
  | tStrhReg (ro rb rd : LowReg)
  /-- Thumb `STRB__register_offset`: store byte, register offset (48_thumb_branch_load_store.md R494). -/
  | tStrbReg (ro rb rd : LowReg)
  /-- Thumb `LDRSB`: load signed byte, register offset (48_thumb_branch_load_store.md R495). -/
  | tLdrsb (ro rb rd : LowReg)
  /-- Thumb `LDR__register_offset`: load word, register offset (48_thumb_branch_load_store.md R496). -/
  | tLdrReg (ro rb rd : LowReg)
  /-- Thumb `LDRH__register_offset`: load halfword, register offset (48_thumb_branch_load_store.md R497). -/
  | tLdrhReg (ro rb rd : LowReg)
  /-- Thumb `LDRB__register_offset`: load byte, register offset (48_thumb_branch_load_store.md R498). -/
  | tLdrbReg (ro rb rd : LowReg)
  /-- Thumb `LDRSH`: load signed halfword, register offset (48_thumb_branch_load_store.md R499). -/
  | tLdrsh (ro rb rd : LowReg)
  /-- Thumb `STR__immediate_offset`: store word, immediate offset (48_thumb_branch_load_store.md R500). -/
  | tStrImm (imm5 : BitVec 5) (rb rd : LowReg)
  /-- Thumb `LDR__immediate_offset`: load word, immediate offset (48_thumb_branch_load_store.md R501). -/
  | tLdrImm (imm5 : BitVec 5) (rb rd : LowReg)
  /-- Thumb `STRB__immediate_offset`: store byte, immediate offset (48_thumb_branch_load_store.md R502). -/
  | tStrbImm (imm5 : BitVec 5) (rb rd : LowReg)
  /-- Thumb `LDRB__immediate_offset`: load byte, immediate offset (48_thumb_branch_load_store.md R503). -/
  | tLdrbImm (imm5 : BitVec 5) (rb rd : LowReg)
  /-- Thumb `STRH__immediate_offset`: store halfword, immediate offset (48_thumb_branch_load_store.md R504). -/
  | tStrhImm (imm5 : BitVec 5) (rb rd : LowReg)
  /-- Thumb `LDRH__immediate_offset`: load halfword, immediate offset (48_thumb_branch_load_store.md R505). -/
  | tLdrhImm (imm5 : BitVec 5) (rb rd : LowReg)
  /-- Thumb `STR__SP-relative`: store word, SP-relative (48_thumb_branch_load_store.md R506). -/
  | tStrSp (rd : LowReg) (imm8 : BitVec 8)
  /-- Thumb `LDR__SP-relative`: load word, SP-relative (48_thumb_branch_load_store.md R507). -/
  | tLdrSp (rd : LowReg) (imm8 : BitVec 8)
  /-- Thumb `ADD__Rd__PC`: address from the PC (47_thumb_data_processing.md R474). -/
  | tAddPc (rd : LowReg) (imm8 : BitVec 8)
  /-- Thumb `ADD__Rd__SP`: address from the SP (47_thumb_data_processing.md R475). -/
  | tAddSp (rd : LowReg) (imm8 : BitVec 8)
  /-- Thumb `ADD__SP`: add to the stack pointer (47_thumb_data_processing.md R476). -/
  | tIncSp (imm7 : BitVec 7)
  /-- Thumb `ADD__SP___-____SUB_SP`: subtract from the stack pointer (47_thumb_data_processing.md R477). -/
  | tDecSp (imm7 : BitVec 7)
  /-- Thumb `PUSH`: push (48_thumb_branch_load_store.md R510). -/
  | tPush (r : Bool) (list : BitVec 8)
  /-- Thumb `POP`: pop (48_thumb_branch_load_store.md R511). -/
  | tPop (r : Bool) (list : BitVec 8)
  /-- Thumb `BKPT`: software breakpoint (48_thumb_branch_load_store.md R541). -/
  | tBkpt (imm8 : BitVec 8)
  /-- Thumb `UNDEFINED__unallocated_1011_space`: the unallocated part of the 1011 space (30_encoding.md R168). -/
  | tUndef1011 (bits : BitVec 12)
  /-- Thumb `STMIA`: store multiple (48_thumb_branch_load_store.md R512). -/
  | tStmia (rb : LowReg) (list : BitVec 8)
  /-- Thumb `LDMIA`: load multiple (48_thumb_branch_load_store.md R513). -/
  | tLdmia (rb : LowReg) (list : BitVec 8)
  /-- Thumb `UNDEFINED__0xDExx`: undefined: a conditional branch with condition 1110 (30_encoding.md R168). -/
  | tUndefDE (imm8 : BitVec 8)
  /-- Thumb `SWI`: software interrupt (48_thumb_branch_load_store.md R540). -/
  | tSwi (imm8 : BitVec 8)
  /-- Thumb `B<cond>`: conditional branch (48_thumb_branch_load_store.md R520). -/
  | tBCond (c : Cond) (simm8 : BitVec 8)
  /-- Thumb `B`: branch (48_thumb_branch_load_store.md R521). -/
  | tB (simm11 : BitVec 11)
  /-- Thumb `BLX__immediate__second_half`: second half of `BLX label`; `offset10` is offset_lo without its bit 0 (48_thumb_branch_load_store.md R531). -/
  | tBlxLow (offset10 : BitVec 10)
  /-- Thumb `UNDEFINED__11101_with_bit_0___1`: undefined: 11101 with bit 0 = 1 (30_encoding.md R168). -/
  | tUndef11101 (bits : BitVec 10)
  /-- Thumb `BL___BLX__immediate__first_half`: first half of `BL` and `BLX label` (48_thumb_branch_load_store.md R530). -/
  | tBlHigh (offset11 : BitVec 11)
  /-- Thumb `BL_second_half`: second half of `BL label` (48_thumb_branch_load_store.md R532). -/
  | tBlLow (offset11 : BitVec 11)
  deriving DecidableEq, Repr

end Sys2Proof
end

