-- ==== Sys2Proof/Decode.lean ====
section
/-! DEFINITION. The decoder, total on words and on bytes, and the encoder (spec/30_encoding.md R132 to R178).
The decoder tests fields in nested cases that follow R136; it gives the first row of spec/opcode_table.json that
matches (R150). -/

namespace Sys2Proof

/-- R134: the condition of four bits. 1111 is no condition (R135) and no caller passes it. -/
def condOfBits (b : BitVec 4) : Cond :=
  if b = 0 then .eq else if b = 1 then .ne else if b = 2 then .cs else if b = 3 then .cc
  else if b = 4 then .mi else if b = 5 then .pl else if b = 6 then .vs else if b = 7 then .vc
  else if b = 8 then .hi else if b = 9 then .ls else if b = 10 then .ge else if b = 11 then .lt
  else if b = 12 then .gt else if b = 13 then .le else .al

/-- The condition field whose lowest bit is bit `i`. -/
def condAt {N : Nat} (i : Nat) (w : BitVec N) : Cond := condOfBits (fld i 4 w)

/-- R137: the shift type of bits 6:5. -/
def shiftKindOfBits (b : BitVec 2) : ShiftKind :=
  if b = 0 then .lsl else if b = 1 then .lsr else if b = 2 then .asr else .ror

/-- R137: `<Oprnd2>`, selected by bits 25 and 4. -/
def operand2At (w : Word) : Operand2 :=
  if flag 25 w then .imm (fld 8 4 w) (fld 0 8 w)
  else if flag 4 w then .shiftReg (fld 8 4 w) (shiftKindOfBits (fld 5 2 w)) (fld 0 4 w)
  else .shiftImm (fld 7 5 w) (shiftKindOfBits (fld 5 2 w)) (fld 0 4 w)

/-- R142: the offset of addressing mode 2, selected by bit 25. -/
def offset2At (w : Word) : Offset2 :=
  if flag 25 w then .reg (fld 7 5 w) (shiftKindOfBits (fld 5 2 w)) (fld 0 4 w) else .imm (fld 0 12 w)

/-- R140: the offset of addressing mode 3, selected by bit 22. -/
def offset3At (w : Word) : Offset3 :=
  if flag 22 w then .imm (push (push 0 (fld 8 4 w)) (fld 0 4 w)) else .reg (fld 8 4 w) (fld 0 4 w)

/-- 43_arm_load_store.md R292: P and W. -/
def indexAt (w : Word) : Index :=
  if flag 24 w then (if flag 21 w then .preIndexed else .offset)
  else (if flag 21 w then .postWriteback else .postIndexed)

/-- 44_arm_load_store_multiple.md R341: P and U. -/
def blockModeAt (w : Word) : BlockMode :=
  if flag 24 w then (if flag 23 w then .ib else .db) else (if flag 23 w then .ia else .da)

/-- R149: the words with bits 31:28 = 1111. -/
def decodeUncond (w : Word) : Instr :=
  if fld 26 2 w = 0b01#2 then
    if flag 24 w && decide (fld 20 3 w = 0b101#3) && decide (fld 12 4 w = 0b1111#4) then .pld (flag 25 w) (flag 23 w) (fld 16 4 w) (fld 0 12 w)
    else .unallocUncond (fld 0 28 w)
  else if fld 25 3 w = 0b101#3 then .blxImm (flag 24 w) (fld 0 24 w)
  else if fld 25 3 w = 0b110#3 then
    if flag 24 w || flag 23 w || flag 21 w then
      if flag 20 w then .ldc2 (flag 24 w) (flag 23 w) (flag 22 w) (flag 21 w) (fld 16 4 w) (fld 12 4 w) (fld 8 4 w) (fld 0 8 w)
      else .stc2 (flag 24 w) (flag 23 w) (flag 22 w) (flag 21 w) (fld 16 4 w) (fld 12 4 w) (fld 8 4 w) (fld 0 8 w)
    else .unallocUncondCop (flag 22 w) (fld 0 21 w)
  else if fld 24 4 w = 0b1110#4 then
    if flag 4 w then
      if flag 20 w then .mrc2 (fld 21 3 w) (fld 16 4 w) (fld 12 4 w) (fld 8 4 w) (fld 5 3 w) (fld 0 4 w)
      else .mcr2 (fld 21 3 w) (fld 16 4 w) (fld 12 4 w) (fld 8 4 w) (fld 5 3 w) (fld 0 4 w)
    else .cdp2 (fld 20 4 w) (fld 16 4 w) (fld 12 4 w) (fld 8 4 w) (fld 5 3 w) (fld 0 4 w)
  else .unallocUncond (fld 0 28 w)

/-- R139, R140: bits 27:25 = 000, bits 7:4 = 1001. -/
def decodeMulSwp (w : Word) : Instr :=
  if fld 21 4 w = 0b0000#4 then .mul (condAt 28 w) (flag 20 w) (fld 16 4 w) (fld 12 4 w) (fld 8 4 w) (fld 0 4 w)
  else if fld 21 4 w = 0b0001#4 then .mla (condAt 28 w) (flag 20 w) (fld 16 4 w) (fld 12 4 w) (fld 8 4 w) (fld 0 4 w)
  else if fld 21 4 w = 0b0100#4 then .umull (condAt 28 w) (flag 20 w) (fld 16 4 w) (fld 12 4 w) (fld 8 4 w) (fld 0 4 w)
  else if fld 21 4 w = 0b0101#4 then .umlal (condAt 28 w) (flag 20 w) (fld 16 4 w) (fld 12 4 w) (fld 8 4 w) (fld 0 4 w)
  else if fld 21 4 w = 0b0110#4 then .smull (condAt 28 w) (flag 20 w) (fld 16 4 w) (fld 12 4 w) (fld 8 4 w) (fld 0 4 w)
  else if fld 21 4 w = 0b0111#4 then .smlal (condAt 28 w) (flag 20 w) (fld 16 4 w) (fld 12 4 w) (fld 8 4 w) (fld 0 4 w)
  else if fld 21 4 w = 0b1000#4 ∧ flag 20 w = false then .swp (condAt 28 w) (fld 16 4 w) (fld 12 4 w) (fld 8 4 w) (fld 0 4 w)
  else if fld 21 4 w = 0b1010#4 ∧ flag 20 w = false then .swpb (condAt 28 w) (fld 16 4 w) (fld 12 4 w) (fld 8 4 w) (fld 0 4 w)
  else .unallocMulSwp (condAt 28 w) (fld 20 5 w) (fld 8 12 w) (fld 0 4 w)

/-- R140: bits 27:25 = 000, bit 7 = bit 4 = 1, bits 6:5 not 00. -/
def decodeExtra (w : Word) : Instr :=
  if flag 20 w then
    if fld 5 2 w = 0b01#2 then .ldrh (condAt 28 w) (flag 23 w) (indexAt w) (fld 16 4 w) (fld 12 4 w) (offset3At w)
    else if fld 5 2 w = 0b10#2 then .ldrsb (condAt 28 w) (flag 23 w) (indexAt w) (fld 16 4 w) (fld 12 4 w) (offset3At w)
    else .ldrsh (condAt 28 w) (flag 23 w) (indexAt w) (fld 16 4 w) (fld 12 4 w) (offset3At w)
  else
    if fld 5 2 w = 0b01#2 then .strh (condAt 28 w) (flag 23 w) (indexAt w) (fld 16 4 w) (fld 12 4 w) (offset3At w)
    else if fld 5 2 w = 0b10#2 then .ldrd (condAt 28 w) (flag 23 w) (indexAt w) (fld 16 4 w) (fld 12 4 w) (offset3At w)
    else .strd (condAt 28 w) (flag 23 w) (indexAt w) (fld 16 4 w) (fld 12 4 w) (offset3At w)

/-- R138: the miscellaneous space. -/
def decodeMisc (w : Word) : Instr :=
  if fld 4 4 w = 0b0000#4 ∧ flag 21 w = false then .mrs (condAt 28 w) (flag 22 w) (fld 16 4 w) (fld 12 4 w) (fld 8 4 w) (fld 0 4 w)
  else if fld 4 4 w = 0b0000#4 ∧ flag 21 w = true then .msrReg (condAt 28 w) (flag 22 w) (fld 16 4 w) (fld 12 4 w) (fld 8 4 w) (fld 0 4 w)
  else if fld 21 2 w = 0b01#2 ∧ fld 4 4 w = 0b0001#4 then .bx (condAt 28 w) (fld 8 12 w) (fld 0 4 w)
  else if fld 21 2 w = 0b01#2 ∧ fld 4 4 w = 0b0011#4 then .blxReg (condAt 28 w) (fld 8 12 w) (fld 0 4 w)
  else if fld 21 2 w = 0b11#2 ∧ fld 4 4 w = 0b0001#4 then .clz (condAt 28 w) (fld 16 4 w) (fld 12 4 w) (fld 8 4 w) (fld 0 4 w)
  else if fld 21 2 w = 0b00#2 ∧ fld 4 4 w = 0b0101#4 then .qadd (condAt 28 w) (fld 16 4 w) (fld 12 4 w) (fld 8 4 w) (fld 0 4 w)
  else if fld 21 2 w = 0b01#2 ∧ fld 4 4 w = 0b0101#4 then .qsub (condAt 28 w) (fld 16 4 w) (fld 12 4 w) (fld 8 4 w) (fld 0 4 w)
  else if fld 21 2 w = 0b10#2 ∧ fld 4 4 w = 0b0101#4 then .qdadd (condAt 28 w) (fld 16 4 w) (fld 12 4 w) (fld 8 4 w) (fld 0 4 w)
  else if fld 21 2 w = 0b11#2 ∧ fld 4 4 w = 0b0101#4 then .qdsub (condAt 28 w) (fld 16 4 w) (fld 12 4 w) (fld 8 4 w) (fld 0 4 w)
  else if fld 21 2 w = 0b01#2 ∧ fld 4 4 w = 0b0111#4 then .bkpt (condAt 28 w) (fld 8 12 w) (fld 0 4 w)
  else if flag 7 w = true ∧ flag 4 w = false ∧ fld 21 2 w = 0b00#2 then .smlaXY (condAt 28 w) (fld 16 4 w) (fld 12 4 w) (fld 8 4 w) (flag 6 w) (flag 5 w) (fld 0 4 w)
  else if flag 7 w = true ∧ flag 4 w = false ∧ fld 21 2 w = 0b01#2 ∧ flag 5 w = false then .smlawY (condAt 28 w) (fld 16 4 w) (fld 12 4 w) (fld 8 4 w) (flag 6 w) (fld 0 4 w)
  else if flag 7 w = true ∧ flag 4 w = false ∧ fld 21 2 w = 0b01#2 ∧ flag 5 w = true then .smulwY (condAt 28 w) (fld 16 4 w) (fld 12 4 w) (fld 8 4 w) (flag 6 w) (fld 0 4 w)
  else if flag 7 w = true ∧ flag 4 w = false ∧ fld 21 2 w = 0b10#2 then .smlalXY (condAt 28 w) (fld 16 4 w) (fld 12 4 w) (fld 8 4 w) (flag 6 w) (flag 5 w) (fld 0 4 w)
  else if flag 7 w = true ∧ flag 4 w = false ∧ fld 21 2 w = 0b11#2 then .smulXY (condAt 28 w) (fld 16 4 w) (fld 12 4 w) (fld 8 4 w) (flag 6 w) (flag 5 w) (fld 0 4 w)
  else .unallocMisc (condAt 28 w) (fld 21 2 w) (fld 8 12 w) (fld 4 4 w) (fld 0 4 w)

/-- R137: data processing; TST, TEQ, CMP and CMN are here only with S = 1. -/
def decodeDp (w : Word) : Instr :=
  if fld 21 4 w = 0#4 then .armAnd (condAt 28 w) (flag 20 w) (fld 16 4 w) (fld 12 4 w) (operand2At w)
  else if fld 21 4 w = 1#4 then .armEor (condAt 28 w) (flag 20 w) (fld 16 4 w) (fld 12 4 w) (operand2At w)
  else if fld 21 4 w = 2#4 then .armSub (condAt 28 w) (flag 20 w) (fld 16 4 w) (fld 12 4 w) (operand2At w)
  else if fld 21 4 w = 3#4 then .armRsb (condAt 28 w) (flag 20 w) (fld 16 4 w) (fld 12 4 w) (operand2At w)
  else if fld 21 4 w = 4#4 then .armAdd (condAt 28 w) (flag 20 w) (fld 16 4 w) (fld 12 4 w) (operand2At w)
  else if fld 21 4 w = 5#4 then .armAdc (condAt 28 w) (flag 20 w) (fld 16 4 w) (fld 12 4 w) (operand2At w)
  else if fld 21 4 w = 6#4 then .armSbc (condAt 28 w) (flag 20 w) (fld 16 4 w) (fld 12 4 w) (operand2At w)
  else if fld 21 4 w = 7#4 then .armRsc (condAt 28 w) (flag 20 w) (fld 16 4 w) (fld 12 4 w) (operand2At w)
  else if fld 21 4 w = 8#4 then .armTst (condAt 28 w) (fld 16 4 w) (fld 12 4 w) (operand2At w)
  else if fld 21 4 w = 9#4 then .armTeq (condAt 28 w) (fld 16 4 w) (fld 12 4 w) (operand2At w)
  else if fld 21 4 w = 10#4 then .armCmp (condAt 28 w) (fld 16 4 w) (fld 12 4 w) (operand2At w)
  else if fld 21 4 w = 11#4 then .armCmn (condAt 28 w) (fld 16 4 w) (fld 12 4 w) (operand2At w)
  else if fld 21 4 w = 12#4 then .armOrr (condAt 28 w) (flag 20 w) (fld 16 4 w) (fld 12 4 w) (operand2At w)
  else if fld 21 4 w = 13#4 then .armMov (condAt 28 w) (flag 20 w) (fld 16 4 w) (fld 12 4 w) (operand2At w)
  else if fld 21 4 w = 14#4 then .armBic (condAt 28 w) (flag 20 w) (fld 16 4 w) (fld 12 4 w) (operand2At w)
  else .armMvn (condAt 28 w) (flag 20 w) (fld 16 4 w) (fld 12 4 w) (operand2At w)

/-- R136: bits 27:25 = 000. -/
def decode000 (w : Word) : Instr :=
  if flag 7 w = true ∧ flag 4 w = true then
    if fld 5 2 w = 0b00#2 then decodeMulSwp w else decodeExtra w
  else if fld 23 2 w = 0b10#2 ∧ flag 20 w = false then decodeMisc w
  else decodeDp w

/-- R136: bits 27:25 = 001; the one word 0xE320F000 is the guaranteed no-operation (R141). -/
def decode001 (w : Word) : Instr :=
  if fld 23 2 w = 0b10#2 ∧ flag 20 w = false then
    if flag 21 w then
      if fld 28 4 w = 0b1110#4 ∧ flag 22 w = false ∧ fld 16 4 w = 0#4 ∧ fld 12 4 w = 0b1111#4 ∧ fld 8 4 w = 0#4
          ∧ fld 0 8 w = 0#8 then .nop
      else .msrImm (condAt 28 w) (flag 22 w) (fld 16 4 w) (fld 12 4 w) (fld 8 4 w) (fld 0 8 w)
    else .unalloc00110 (condAt 28 w) (flag 22 w) (fld 0 20 w)
  else decodeDp w

/-- R142, R143: bits 27:26 = 01. -/
def decode01 (w : Word) : Instr :=
  if flag 25 w = true ∧ flag 4 w = true then .undefArm (condAt 28 w) (fld 5 20 w) (fld 0 4 w)
  else if flag 24 w = false ∧ flag 21 w = true then
    if flag 20 w then
      if flag 22 w then .ldrbt (condAt 28 w) (flag 23 w) (fld 16 4 w) (fld 12 4 w) (offset2At w) else .ldrt (condAt 28 w) (flag 23 w) (fld 16 4 w) (fld 12 4 w) (offset2At w)
    else
      if flag 22 w then .strbt (condAt 28 w) (flag 23 w) (fld 16 4 w) (fld 12 4 w) (offset2At w) else .strt (condAt 28 w) (flag 23 w) (fld 16 4 w) (fld 12 4 w) (offset2At w)
  else if flag 20 w then
    if flag 22 w then .ldrb (condAt 28 w) (flag 23 w) (indexAt w) (fld 16 4 w) (fld 12 4 w) (offset2At w)
    else .ldr (condAt 28 w) (flag 23 w) (indexAt w) (fld 16 4 w) (fld 12 4 w) (offset2At w)
  else
    if flag 22 w then .strb (condAt 28 w) (flag 23 w) (indexAt w) (fld 16 4 w) (fld 12 4 w) (offset2At w)
    else .str (condAt 28 w) (flag 23 w) (indexAt w) (fld 16 4 w) (fld 12 4 w) (offset2At w)

/-- R144: bits 27:25 = 100. -/
def decode100 (w : Word) : Instr :=
  if flag 20 w then
    if flag 22 w then
      if flag 15 w then .ldm3 (condAt 28 w) (blockModeAt w) (flag 21 w) (fld 16 4 w) (fld 0 15 w)
      else .ldm2 (condAt 28 w) (blockModeAt w) (flag 21 w) (fld 16 4 w) (fld 0 15 w)
    else .ldm1 (condAt 28 w) (blockModeAt w) (flag 21 w) (fld 16 4 w) (fld 0 16 w)
  else
    if flag 22 w then .stm2 (condAt 28 w) (blockModeAt w) (flag 21 w) (fld 16 4 w) (fld 0 16 w)
    else .stm1 (condAt 28 w) (blockModeAt w) (flag 21 w) (fld 16 4 w) (fld 0 16 w)

/-- R146: bits 27:25 = 110. -/
def decode110 (w : Word) : Instr :=
  if flag 24 w || flag 23 w || flag 21 w then
    if flag 20 w then .ldc (condAt 28 w) (flag 24 w) (flag 23 w) (flag 22 w) (flag 21 w) (fld 16 4 w) (fld 12 4 w) (fld 8 4 w) (fld 0 8 w)
    else .stc (condAt 28 w) (flag 24 w) (flag 23 w) (flag 22 w) (flag 21 w) (fld 16 4 w) (fld 12 4 w) (fld 8 4 w) (fld 0 8 w)
  else if flag 22 w then
    if flag 20 w then .mrrc (condAt 28 w) (fld 16 4 w) (fld 12 4 w) (fld 8 4 w) (fld 4 4 w) (fld 0 4 w)
    else .mcrr (condAt 28 w) (fld 16 4 w) (fld 12 4 w) (fld 8 4 w) (fld 4 4 w) (fld 0 4 w)
  else .unallocCop (condAt 28 w) (fld 0 21 w)

/-- R147, R148: bits 27:25 = 111. -/
def decode111 (w : Word) : Instr :=
  if flag 24 w then .armSwi (condAt 28 w) (fld 0 24 w)
  else if flag 4 w then
    if flag 20 w then .mrc (condAt 28 w) (fld 21 3 w) (fld 16 4 w) (fld 12 4 w) (fld 8 4 w) (fld 5 3 w) (fld 0 4 w)
    else .mcr (condAt 28 w) (fld 21 3 w) (fld 16 4 w) (fld 12 4 w) (fld 8 4 w) (fld 5 3 w) (fld 0 4 w)
  else .cdp (condAt 28 w) (fld 20 4 w) (fld 16 4 w) (fld 12 4 w) (fld 8 4 w) (fld 5 3 w) (fld 0 4 w)

/-- R136: an ARM word. -/
def decodeArm (w : Word) : Instr :=
  if fld 28 4 w = 0b1111#4 then decodeUncond w
  else if fld 26 2 w = 0b01#2 then decode01 w
  else if fld 25 3 w = 0b000#3 then decode000 w
  else if fld 25 3 w = 0b001#3 then decode001 w
  else if fld 25 3 w = 0b100#3 then decode100 w
  else if fld 25 3 w = 0b101#3 then
    if flag 24 w then .bl (condAt 28 w) (fld 0 24 w) else .b (condAt 28 w) (fld 0 24 w)
  else if fld 25 3 w = 0b110#3 then decode110 w
  else decode111 w

/-- R168: bits 15:12 = 1011. -/
def decodeThumb1011 (w : Half) : Instr :=
  if fld 9 3 w = 0b000#3 ∧ flag 8 w = false then
    if flag 7 w then .tDecSp (fld 0 7 w) else .tIncSp (fld 0 7 w)
  else if fld 9 3 w = 0b010#3 then .tPush (flag 8 w) (fld 0 8 w)
  else if fld 9 3 w = 0b110#3 then .tPop (flag 8 w) (fld 0 8 w)
  else if fld 9 3 w = 0b111#3 ∧ flag 8 w = false then .tBkpt (fld 0 8 w)
  else .tUndef1011 (fld 0 12 w)

/-- R162 and section 4 of 47_thumb_data_processing.md: bits 15:11 = 01000. -/
def decodeThumb01000 (w : Half) : Instr :=
  if flag 10 w then
    if fld 8 2 w = 0b00#2 then .tAddHigh (flag 7 w) (flag 6 w) (fld 3 3 w) (fld 0 3 w)
    else if fld 8 2 w = 0b01#2 then .tCmpHigh (flag 7 w) (flag 6 w) (fld 3 3 w) (fld 0 3 w)
    else if fld 8 2 w = 0b10#2 then .tMovHigh (flag 7 w) (flag 6 w) (fld 3 3 w) (fld 0 3 w)
    else if flag 7 w then .tBlxReg (fld 3 4 w) (fld 0 3 w)
    else .tBx (fld 3 4 w) (fld 0 3 w)
  else
    if fld 6 4 w = 0#4 then .tAnd (fld 3 3 w) (fld 0 3 w)
    else if fld 6 4 w = 1#4 then .tEor (fld 3 3 w) (fld 0 3 w)
    else if fld 6 4 w = 2#4 then .tLslReg (fld 3 3 w) (fld 0 3 w)
    else if fld 6 4 w = 3#4 then .tLsrReg (fld 3 3 w) (fld 0 3 w)
    else if fld 6 4 w = 4#4 then .tAsrReg (fld 3 3 w) (fld 0 3 w)
    else if fld 6 4 w = 5#4 then .tAdc (fld 3 3 w) (fld 0 3 w)
    else if fld 6 4 w = 6#4 then .tSbc (fld 3 3 w) (fld 0 3 w)
    else if fld 6 4 w = 7#4 then .tRor (fld 3 3 w) (fld 0 3 w)
    else if fld 6 4 w = 8#4 then .tTst (fld 3 3 w) (fld 0 3 w)
    else if fld 6 4 w = 9#4 then .tNeg (fld 3 3 w) (fld 0 3 w)
    else if fld 6 4 w = 10#4 then .tCmpReg (fld 3 3 w) (fld 0 3 w)
    else if fld 6 4 w = 11#4 then .tCmn (fld 3 3 w) (fld 0 3 w)
    else if fld 6 4 w = 12#4 then .tOrr (fld 3 3 w) (fld 0 3 w)
    else if fld 6 4 w = 13#4 then .tMul (fld 3 3 w) (fld 0 3 w)
    else if fld 6 4 w = 14#4 then .tBic (fld 3 3 w) (fld 0 3 w)
    else .tMvn (fld 3 3 w) (fld 0 3 w)

/-- 30_encoding.md R157, R168: a Thumb halfword. -/
def decodeThumb (w : Half) : Instr :=
  if fld 12 4 w = 0b1011#4 then decodeThumb1011 w
  else if fld 12 4 w = 0b1101#4 then
    if fld 8 4 w = 0b1110#4 then .tUndefDE (fld 0 8 w)
    else if fld 8 4 w = 0b1111#4 then .tSwi (fld 0 8 w)
    else .tBCond (condAt 8 w) (fld 0 8 w)
  else if fld 12 4 w = 0b0101#4 then
    if fld 9 3 w = 0#3 then .tStrReg (fld 6 3 w) (fld 3 3 w) (fld 0 3 w)
    else if fld 9 3 w = 1#3 then .tStrhReg (fld 6 3 w) (fld 3 3 w) (fld 0 3 w)
    else if fld 9 3 w = 2#3 then .tStrbReg (fld 6 3 w) (fld 3 3 w) (fld 0 3 w)
    else if fld 9 3 w = 3#3 then .tLdrsb (fld 6 3 w) (fld 3 3 w) (fld 0 3 w)
    else if fld 9 3 w = 4#3 then .tLdrReg (fld 6 3 w) (fld 3 3 w) (fld 0 3 w)
    else if fld 9 3 w = 5#3 then .tLdrhReg (fld 6 3 w) (fld 3 3 w) (fld 0 3 w)
    else if fld 9 3 w = 6#3 then .tLdrbReg (fld 6 3 w) (fld 3 3 w) (fld 0 3 w)
    else .tLdrsh (fld 6 3 w) (fld 3 3 w) (fld 0 3 w)
  else if fld 11 5 w = 0b00011#5 then
    if fld 9 2 w = 0#2 then .tAddReg (fld 6 3 w) (fld 3 3 w) (fld 0 3 w)
    else if fld 9 2 w = 1#2 then .tSubReg (fld 6 3 w) (fld 3 3 w) (fld 0 3 w)
    else if fld 9 2 w = 2#2 then .tAddImm3 (fld 6 3 w) (fld 3 3 w) (fld 0 3 w)
    else .tSubImm3 (fld 6 3 w) (fld 3 3 w) (fld 0 3 w)
  else if fld 11 5 w = 0b01000#5 then decodeThumb01000 w
  else if fld 11 5 w = 0b11101#5 then
    if flag 0 w then .tUndef11101 (fld 1 10 w)
    else .tBlxLow (fld 1 10 w)
  else if fld 11 5 w = 0b00000#5 then .tLslImm (fld 6 5 w) (fld 3 3 w) (fld 0 3 w)
  else if fld 11 5 w = 0b00001#5 then .tLsrImm (fld 6 5 w) (fld 3 3 w) (fld 0 3 w)
  else if fld 11 5 w = 0b00010#5 then .tAsrImm (fld 6 5 w) (fld 3 3 w) (fld 0 3 w)
  else if fld 11 5 w = 0b00100#5 then .tMovImm (fld 8 3 w) (fld 0 8 w)
  else if fld 11 5 w = 0b00101#5 then .tCmpImm (fld 8 3 w) (fld 0 8 w)
  else if fld 11 5 w = 0b00110#5 then .tAddImm8 (fld 8 3 w) (fld 0 8 w)
  else if fld 11 5 w = 0b00111#5 then .tSubImm8 (fld 8 3 w) (fld 0 8 w)
  else if fld 11 5 w = 0b01001#5 then .tLdrPc (fld 8 3 w) (fld 0 8 w)
  else if fld 11 5 w = 0b01100#5 then .tStrImm (fld 6 5 w) (fld 3 3 w) (fld 0 3 w)
  else if fld 11 5 w = 0b01101#5 then .tLdrImm (fld 6 5 w) (fld 3 3 w) (fld 0 3 w)
  else if fld 11 5 w = 0b01110#5 then .tStrbImm (fld 6 5 w) (fld 3 3 w) (fld 0 3 w)
  else if fld 11 5 w = 0b01111#5 then .tLdrbImm (fld 6 5 w) (fld 3 3 w) (fld 0 3 w)
  else if fld 11 5 w = 0b10000#5 then .tStrhImm (fld 6 5 w) (fld 3 3 w) (fld 0 3 w)
  else if fld 11 5 w = 0b10001#5 then .tLdrhImm (fld 6 5 w) (fld 3 3 w) (fld 0 3 w)
  else if fld 11 5 w = 0b10010#5 then .tStrSp (fld 8 3 w) (fld 0 8 w)
  else if fld 11 5 w = 0b10011#5 then .tLdrSp (fld 8 3 w) (fld 0 8 w)
  else if fld 11 5 w = 0b10100#5 then .tAddPc (fld 8 3 w) (fld 0 8 w)
  else if fld 11 5 w = 0b10101#5 then .tAddSp (fld 8 3 w) (fld 0 8 w)
  else if fld 11 5 w = 0b11000#5 then .tStmia (fld 8 3 w) (fld 0 8 w)
  else if fld 11 5 w = 0b11001#5 then .tLdmia (fld 8 3 w) (fld 0 8 w)
  else if fld 11 5 w = 0b11100#5 then .tB (fld 0 11 w)
  else if fld 11 5 w = 0b11110#5 then .tBlHigh (fld 0 11 w)
  else .tBlLow (fld 0 11 w)

/-- Bit 25 of `<Oprnd2>`. -/
def Operand2.isImm : Operand2 → BitVec 1
  | .imm _ _ => 1
  | .shiftImm _ _ _ => 0
  | .shiftReg _ _ _ => 0

/-- Bits 11:0 of `<Oprnd2>`. -/
def Operand2.bits : Operand2 → BitVec 12
  | .imm rot imm8 => push (push 0#12 rot) imm8
  | .shiftImm amount kind rm => push (push (push (push 0#12 amount) kind.bits) 0#1) rm
  | .shiftReg rs kind rm => push (push (push (push (push 0#12 rs) 0#1) kind.bits) 1#1) rm

/-- Bit 25 of addressing mode 2. -/
def Offset2.isReg : Offset2 → BitVec 1
  | .imm _ => 0
  | .reg _ _ _ => 1

/-- Bits 11:0 of addressing mode 2. -/
def Offset2.bits : Offset2 → BitVec 12
  | .imm offset12 => offset12
  | .reg amount kind rm => push (push (push (push 0#12 amount) kind.bits) 0#1) rm

/-- Bit 22 of addressing mode 3. -/
def Offset3.isImm : Offset3 → BitVec 1
  | .imm _ => 1
  | .reg _ _ => 0

/-- Bits 11:8 of addressing mode 3. -/
def Offset3.high : Offset3 → BitVec 4
  | .imm imm8 => fld 4 4 imm8
  | .reg sbz _ => sbz

/-- Bits 3:0 of addressing mode 3. -/
def Offset3.low : Offset3 → BitVec 4
  | .imm imm8 => fld 0 4 imm8
  | .reg _ rm => rm

/-- The instruction word of an ARM instruction, field by field from its format in 30_encoding.md (R136 to R149);
zero for a Thumb instruction. -/
def encodeArm : Instr → Word
  | .pld i u rn addrMode => push (push (push (push (push (push (push (push 0#32 0b111101#6) (bit i)) 0b1#1) (bit u)) 0b101#3) rn) 0b1111#4) addrMode
  | .blxImm h imm24 => push (push (push 0#32 0b1111101#7) (bit h)) imm24
  | .unallocUncondCop n rest => push (push (push (push 0#32 0b111111000#9) (bit n)) 0b0#1) rest
  | .ldc2 p u n w rn crd cp offset8 => push (push (push (push (push (push (push (push (push (push 0#32 0b1111110#7) (bit p)) (bit u)) (bit n)) (bit w)) 0b1#1) rn) crd) cp) offset8
  | .stc2 p u n w rn crd cp offset8 => push (push (push (push (push (push (push (push (push (push 0#32 0b1111110#7) (bit p)) (bit u)) (bit n)) (bit w)) 0b0#1) rn) crd) cp) offset8
  | .cdp2 op1 crn crd cp op2 crm => push (push (push (push (push (push (push (push 0#32 0b11111110#8) op1) crn) crd) cp) op2) 0b0#1) crm
  | .mcr2 op1 crn rd cp op2 crm => push (push (push (push (push (push (push (push (push 0#32 0b11111110#8) op1) 0b0#1) crn) rd) cp) op2) 0b1#1) crm
  | .mrc2 op1 crn rd cp op2 crm => push (push (push (push (push (push (push (push (push 0#32 0b11111110#8) op1) 0b1#1) crn) rd) cp) op2) 0b1#1) crm
  | .unallocUncond bits => push (push 0#32 0b1111#4) bits
  | .nop => push 0#32 0b11100011001000001111000000000000#32
  | .mul c sf rd sbz rs rm => push (push (push (push (push (push (push (push 0#32 c.bits) 0b0000000#7) (bit sf)) rd) sbz) rs) 0b1001#4) rm
  | .mla c sf rd rn rs rm => push (push (push (push (push (push (push (push 0#32 c.bits) 0b0000001#7) (bit sf)) rd) rn) rs) 0b1001#4) rm
  | .umull c sf rdHi rdLo rs rm => push (push (push (push (push (push (push (push 0#32 c.bits) 0b0000100#7) (bit sf)) rdHi) rdLo) rs) 0b1001#4) rm
  | .umlal c sf rdHi rdLo rs rm => push (push (push (push (push (push (push (push 0#32 c.bits) 0b0000101#7) (bit sf)) rdHi) rdLo) rs) 0b1001#4) rm
  | .smull c sf rdHi rdLo rs rm => push (push (push (push (push (push (push (push 0#32 c.bits) 0b0000110#7) (bit sf)) rdHi) rdLo) rs) 0b1001#4) rm
  | .smlal c sf rdHi rdLo rs rm => push (push (push (push (push (push (push (push 0#32 c.bits) 0b0000111#7) (bit sf)) rdHi) rdLo) rs) 0b1001#4) rm
  | .swp c rn rd sbz rm => push (push (push (push (push (push (push 0#32 c.bits) 0b00010000#8) rn) rd) sbz) 0b1001#4) rm
  | .swpb c rn rd sbz rm => push (push (push (push (push (push (push 0#32 c.bits) 0b00010100#8) rn) rd) sbz) 0b1001#4) rm
  | .unallocMulSwp c op mid low => push (push (push (push (push (push 0#32 c.bits) 0b000#3) op) mid) 0b1001#4) low
  | .strh c u idx rn rd off => push (push (push (push (push (push (push (push (push (push (push (push 0#32 c.bits) 0b000#3) idx.p) (bit u)) off.isImm) idx.w) 0b0#1) rn) rd) off.high) 0b1011#4) off.low
  | .ldrd c u idx rn rd off => push (push (push (push (push (push (push (push (push (push (push (push 0#32 c.bits) 0b000#3) idx.p) (bit u)) off.isImm) idx.w) 0b0#1) rn) rd) off.high) 0b1101#4) off.low
  | .strd c u idx rn rd off => push (push (push (push (push (push (push (push (push (push (push (push 0#32 c.bits) 0b000#3) idx.p) (bit u)) off.isImm) idx.w) 0b0#1) rn) rd) off.high) 0b1111#4) off.low
  | .ldrh c u idx rn rd off => push (push (push (push (push (push (push (push (push (push (push (push 0#32 c.bits) 0b000#3) idx.p) (bit u)) off.isImm) idx.w) 0b1#1) rn) rd) off.high) 0b1011#4) off.low
  | .ldrsb c u idx rn rd off => push (push (push (push (push (push (push (push (push (push (push (push 0#32 c.bits) 0b000#3) idx.p) (bit u)) off.isImm) idx.w) 0b1#1) rn) rd) off.high) 0b1101#4) off.low
  | .ldrsh c u idx rn rd off => push (push (push (push (push (push (push (push (push (push (push (push 0#32 c.bits) 0b000#3) idx.p) (bit u)) off.isImm) idx.w) 0b1#1) rn) rd) off.high) 0b1111#4) off.low
  | .mrs c r sbo rd sbz1 sbz2 => push (push (push (push (push (push (push (push (push 0#32 c.bits) 0b00010#5) (bit r)) 0b00#2) sbo) rd) sbz1) 0b0000#4) sbz2
  | .msrReg c r mask sbo sbz rm => push (push (push (push (push (push (push (push (push 0#32 c.bits) 0b00010#5) (bit r)) 0b10#2) mask) sbo) sbz) 0b0000#4) rm
  | .bx c sbo rm => push (push (push (push (push 0#32 c.bits) 0b00010010#8) sbo) 0b0001#4) rm
  | .blxReg c sbo rm => push (push (push (push (push 0#32 c.bits) 0b00010010#8) sbo) 0b0011#4) rm
  | .clz c sbo1 rd sbo2 rm => push (push (push (push (push (push (push 0#32 c.bits) 0b00010110#8) sbo1) rd) sbo2) 0b0001#4) rm
  | .qadd c rn rd sbz rm => push (push (push (push (push (push (push 0#32 c.bits) 0b00010000#8) rn) rd) sbz) 0b0101#4) rm
  | .qsub c rn rd sbz rm => push (push (push (push (push (push (push 0#32 c.bits) 0b00010010#8) rn) rd) sbz) 0b0101#4) rm
  | .qdadd c rn rd sbz rm => push (push (push (push (push (push (push 0#32 c.bits) 0b00010100#8) rn) rd) sbz) 0b0101#4) rm
  | .qdsub c rn rd sbz rm => push (push (push (push (push (push (push 0#32 c.bits) 0b00010110#8) rn) rd) sbz) 0b0101#4) rm
  | .bkpt c immHi immLo => push (push (push (push (push 0#32 c.bits) 0b00010010#8) immHi) 0b0111#4) immLo
  | .smlaXY c rd rn rs y x rm => push (push (push (push (push (push (push (push (push (push 0#32 c.bits) 0b00010000#8) rd) rn) rs) 0b1#1) (bit y)) (bit x)) 0b0#1) rm
  | .smlawY c rd rn rs y rm => push (push (push (push (push (push (push (push (push 0#32 c.bits) 0b00010010#8) rd) rn) rs) 0b1#1) (bit y)) 0b00#2) rm
  | .smulwY c rd sbz rs y rm => push (push (push (push (push (push (push (push (push 0#32 c.bits) 0b00010010#8) rd) sbz) rs) 0b1#1) (bit y)) 0b10#2) rm
  | .smlalXY c rdHi rdLo rs y x rm => push (push (push (push (push (push (push (push (push (push 0#32 c.bits) 0b00010100#8) rdHi) rdLo) rs) 0b1#1) (bit y)) (bit x)) 0b0#1) rm
  | .smulXY c rd sbz rs y x rm => push (push (push (push (push (push (push (push (push (push 0#32 c.bits) 0b00010110#8) rd) sbz) rs) 0b1#1) (bit y)) (bit x)) 0b0#1) rm
  | .unallocMisc c op mid lo low => push (push (push (push (push (push (push 0#32 c.bits) 0b00010#5) op) 0b0#1) mid) lo) low
  | .msrImm c r mask sbo rot imm8 => push (push (push (push (push (push (push (push 0#32 c.bits) 0b00110#5) (bit r)) 0b10#2) mask) sbo) rot) imm8
  | .unalloc00110 c r rest => push (push (push (push (push 0#32 c.bits) 0b00110#5) (bit r)) 0b00#2) rest
  | .armAnd c sf rn rd op2 => push (push (push (push (push (push (push (push 0#32 c.bits) 0b00#2) op2.isImm) 0b0000#4) (bit sf)) rn) rd) op2.bits
  | .armEor c sf rn rd op2 => push (push (push (push (push (push (push (push 0#32 c.bits) 0b00#2) op2.isImm) 0b0001#4) (bit sf)) rn) rd) op2.bits
  | .armSub c sf rn rd op2 => push (push (push (push (push (push (push (push 0#32 c.bits) 0b00#2) op2.isImm) 0b0010#4) (bit sf)) rn) rd) op2.bits
  | .armRsb c sf rn rd op2 => push (push (push (push (push (push (push (push 0#32 c.bits) 0b00#2) op2.isImm) 0b0011#4) (bit sf)) rn) rd) op2.bits
  | .armAdd c sf rn rd op2 => push (push (push (push (push (push (push (push 0#32 c.bits) 0b00#2) op2.isImm) 0b0100#4) (bit sf)) rn) rd) op2.bits
  | .armAdc c sf rn rd op2 => push (push (push (push (push (push (push (push 0#32 c.bits) 0b00#2) op2.isImm) 0b0101#4) (bit sf)) rn) rd) op2.bits
  | .armSbc c sf rn rd op2 => push (push (push (push (push (push (push (push 0#32 c.bits) 0b00#2) op2.isImm) 0b0110#4) (bit sf)) rn) rd) op2.bits
  | .armRsc c sf rn rd op2 => push (push (push (push (push (push (push (push 0#32 c.bits) 0b00#2) op2.isImm) 0b0111#4) (bit sf)) rn) rd) op2.bits
  | .armTst c rn sbz op2 => push (push (push (push (push (push (push 0#32 c.bits) 0b00#2) op2.isImm) 0b10001#5) rn) sbz) op2.bits
  | .armTeq c rn sbz op2 => push (push (push (push (push (push (push 0#32 c.bits) 0b00#2) op2.isImm) 0b10011#5) rn) sbz) op2.bits
  | .armCmp c rn sbz op2 => push (push (push (push (push (push (push 0#32 c.bits) 0b00#2) op2.isImm) 0b10101#5) rn) sbz) op2.bits
  | .armCmn c rn sbz op2 => push (push (push (push (push (push (push 0#32 c.bits) 0b00#2) op2.isImm) 0b10111#5) rn) sbz) op2.bits
  | .armOrr c sf rn rd op2 => push (push (push (push (push (push (push (push 0#32 c.bits) 0b00#2) op2.isImm) 0b1100#4) (bit sf)) rn) rd) op2.bits
  | .armMov c sf sbz rd op2 => push (push (push (push (push (push (push (push 0#32 c.bits) 0b00#2) op2.isImm) 0b1101#4) (bit sf)) sbz) rd) op2.bits
  | .armBic c sf rn rd op2 => push (push (push (push (push (push (push (push 0#32 c.bits) 0b00#2) op2.isImm) 0b1110#4) (bit sf)) rn) rd) op2.bits
  | .armMvn c sf sbz rd op2 => push (push (push (push (push (push (push (push 0#32 c.bits) 0b00#2) op2.isImm) 0b1111#4) (bit sf)) sbz) rd) op2.bits
  | .undefArm c high low => push (push (push (push (push 0#32 c.bits) 0b011#3) high) 0b1#1) low
  | .ldrt c u rn rd off => push (push (push (push (push (push (push (push (push 0#32 c.bits) 0b01#2) off.isReg) 0b0#1) (bit u)) 0b011#3) rn) rd) off.bits
  | .ldrbt c u rn rd off => push (push (push (push (push (push (push (push (push 0#32 c.bits) 0b01#2) off.isReg) 0b0#1) (bit u)) 0b111#3) rn) rd) off.bits
  | .strt c u rn rd off => push (push (push (push (push (push (push (push (push 0#32 c.bits) 0b01#2) off.isReg) 0b0#1) (bit u)) 0b010#3) rn) rd) off.bits
  | .strbt c u rn rd off => push (push (push (push (push (push (push (push (push 0#32 c.bits) 0b01#2) off.isReg) 0b0#1) (bit u)) 0b110#3) rn) rd) off.bits
  | .ldr c u idx rn rd off => push (push (push (push (push (push (push (push (push (push (push 0#32 c.bits) 0b01#2) off.isReg) idx.p) (bit u)) 0b0#1) idx.w) 0b1#1) rn) rd) off.bits
  | .ldrb c u idx rn rd off => push (push (push (push (push (push (push (push (push (push (push 0#32 c.bits) 0b01#2) off.isReg) idx.p) (bit u)) 0b1#1) idx.w) 0b1#1) rn) rd) off.bits
  | .str c u idx rn rd off => push (push (push (push (push (push (push (push (push (push (push 0#32 c.bits) 0b01#2) off.isReg) idx.p) (bit u)) 0b0#1) idx.w) 0b0#1) rn) rd) off.bits
  | .strb c u idx rn rd off => push (push (push (push (push (push (push (push (push (push (push 0#32 c.bits) 0b01#2) off.isReg) idx.p) (bit u)) 0b1#1) idx.w) 0b0#1) rn) rd) off.bits
  | .ldm1 c mode w rn list => push (push (push (push (push (push (push (push (push 0#32 c.bits) 0b100#3) mode.p) mode.u) 0b0#1) (bit w)) 0b1#1) rn) list
  | .ldm2 c mode w rn list => push (push (push (push (push (push (push (push (push (push 0#32 c.bits) 0b100#3) mode.p) mode.u) 0b1#1) (bit w)) 0b1#1) rn) 0b0#1) list
  | .ldm3 c mode w rn list => push (push (push (push (push (push (push (push (push (push 0#32 c.bits) 0b100#3) mode.p) mode.u) 0b1#1) (bit w)) 0b1#1) rn) 0b1#1) list
  | .stm1 c mode w rn list => push (push (push (push (push (push (push (push (push 0#32 c.bits) 0b100#3) mode.p) mode.u) 0b0#1) (bit w)) 0b0#1) rn) list
  | .stm2 c mode w rn list => push (push (push (push (push (push (push (push (push 0#32 c.bits) 0b100#3) mode.p) mode.u) 0b1#1) (bit w)) 0b0#1) rn) list
  | .b c imm24 => push (push (push 0#32 c.bits) 0b1010#4) imm24
  | .bl c imm24 => push (push (push 0#32 c.bits) 0b1011#4) imm24
  | .mcrr c rn rd cp opc crm => push (push (push (push (push (push (push 0#32 c.bits) 0b11000100#8) rn) rd) cp) opc) crm
  | .mrrc c rn rd cp opc crm => push (push (push (push (push (push (push 0#32 c.bits) 0b11000101#8) rn) rd) cp) opc) crm
  | .unallocCop c rest => push (push (push 0#32 c.bits) 0b1100000#7) rest
  | .ldc c p u n w rn crd cp offset8 => push (push (push (push (push (push (push (push (push (push (push 0#32 c.bits) 0b110#3) (bit p)) (bit u)) (bit n)) (bit w)) 0b1#1) rn) crd) cp) offset8
  | .stc c p u n w rn crd cp offset8 => push (push (push (push (push (push (push (push (push (push (push 0#32 c.bits) 0b110#3) (bit p)) (bit u)) (bit n)) (bit w)) 0b0#1) rn) crd) cp) offset8
  | .cdp c op1 crn crd cp op2 crm => push (push (push (push (push (push (push (push (push 0#32 c.bits) 0b1110#4) op1) crn) crd) cp) op2) 0b0#1) crm
  | .mcr c op1 crn rd cp op2 crm => push (push (push (push (push (push (push (push (push (push 0#32 c.bits) 0b1110#4) op1) 0b0#1) crn) rd) cp) op2) 0b1#1) crm
  | .mrc c op1 crn rd cp op2 crm => push (push (push (push (push (push (push (push (push (push 0#32 c.bits) 0b1110#4) op1) 0b1#1) crn) rd) cp) op2) 0b1#1) crm
  | .armSwi c imm24 => push (push (push 0#32 c.bits) 0b1111#4) imm24
  | .tLslImm _ _ _ => 0
  | .tLsrImm _ _ _ => 0
  | .tAsrImm _ _ _ => 0
  | .tAddReg _ _ _ => 0
  | .tSubReg _ _ _ => 0
  | .tAddImm3 _ _ _ => 0
  | .tSubImm3 _ _ _ => 0
  | .tMovImm _ _ => 0
  | .tCmpImm _ _ => 0
  | .tAddImm8 _ _ => 0
  | .tSubImm8 _ _ => 0
  | .tAnd _ _ => 0
  | .tEor _ _ => 0
  | .tLslReg _ _ => 0
  | .tLsrReg _ _ => 0
  | .tAsrReg _ _ => 0
  | .tAdc _ _ => 0
  | .tSbc _ _ => 0
  | .tRor _ _ => 0
  | .tTst _ _ => 0
  | .tNeg _ _ => 0
  | .tCmpReg _ _ => 0
  | .tCmn _ _ => 0
  | .tOrr _ _ => 0
  | .tMul _ _ => 0
  | .tBic _ _ => 0
  | .tMvn _ _ => 0
  | .tAddHigh _ _ _ _ => 0
  | .tCmpHigh _ _ _ _ => 0
  | .tMovHigh _ _ _ _ => 0
  | .tBx _ _ => 0
  | .tBlxReg _ _ => 0
  | .tLdrPc _ _ => 0
  | .tStrReg _ _ _ => 0
  | .tStrhReg _ _ _ => 0
  | .tStrbReg _ _ _ => 0
  | .tLdrsb _ _ _ => 0
  | .tLdrReg _ _ _ => 0
  | .tLdrhReg _ _ _ => 0
  | .tLdrbReg _ _ _ => 0
  | .tLdrsh _ _ _ => 0
  | .tStrImm _ _ _ => 0
  | .tLdrImm _ _ _ => 0
  | .tStrbImm _ _ _ => 0
  | .tLdrbImm _ _ _ => 0
  | .tStrhImm _ _ _ => 0
  | .tLdrhImm _ _ _ => 0
  | .tStrSp _ _ => 0
  | .tLdrSp _ _ => 0
  | .tAddPc _ _ => 0
  | .tAddSp _ _ => 0
  | .tIncSp _ => 0
  | .tDecSp _ => 0
  | .tPush _ _ => 0
  | .tPop _ _ => 0
  | .tBkpt _ => 0
  | .tUndef1011 _ => 0
  | .tStmia _ _ => 0
  | .tLdmia _ _ => 0
  | .tUndefDE _ => 0
  | .tSwi _ => 0
  | .tBCond _ _ => 0
  | .tB _ => 0
  | .tBlxLow _ => 0
  | .tUndef11101 _ => 0
  | .tBlHigh _ => 0
  | .tBlLow _ => 0

/-- The halfword of a Thumb instruction (30_encoding.md R158 to R168); zero for an ARM instruction. -/
def encodeThumb : Instr → Half
  | .tLslImm imm5 rs rd => push (push (push (push 0#16 0b00000#5) imm5) rs) rd
  | .tLsrImm imm5 rs rd => push (push (push (push 0#16 0b00001#5) imm5) rs) rd
  | .tAsrImm imm5 rs rd => push (push (push (push 0#16 0b00010#5) imm5) rs) rd
  | .tAddReg rn rs rd => push (push (push (push 0#16 0b0001100#7) rn) rs) rd
  | .tSubReg rn rs rd => push (push (push (push 0#16 0b0001101#7) rn) rs) rd
  | .tAddImm3 imm3 rs rd => push (push (push (push 0#16 0b0001110#7) imm3) rs) rd
  | .tSubImm3 imm3 rs rd => push (push (push (push 0#16 0b0001111#7) imm3) rs) rd
  | .tMovImm rd imm8 => push (push (push 0#16 0b00100#5) rd) imm8
  | .tCmpImm rd imm8 => push (push (push 0#16 0b00101#5) rd) imm8
  | .tAddImm8 rd imm8 => push (push (push 0#16 0b00110#5) rd) imm8
  | .tSubImm8 rd imm8 => push (push (push 0#16 0b00111#5) rd) imm8
  | .tAnd rs rd => push (push (push 0#16 0b0100000000#10) rs) rd
  | .tEor rs rd => push (push (push 0#16 0b0100000001#10) rs) rd
  | .tLslReg rs rd => push (push (push 0#16 0b0100000010#10) rs) rd
  | .tLsrReg rs rd => push (push (push 0#16 0b0100000011#10) rs) rd
  | .tAsrReg rs rd => push (push (push 0#16 0b0100000100#10) rs) rd
  | .tAdc rs rd => push (push (push 0#16 0b0100000101#10) rs) rd
  | .tSbc rs rd => push (push (push 0#16 0b0100000110#10) rs) rd
  | .tRor rs rd => push (push (push 0#16 0b0100000111#10) rs) rd
  | .tTst rs rd => push (push (push 0#16 0b0100001000#10) rs) rd
  | .tNeg rs rd => push (push (push 0#16 0b0100001001#10) rs) rd
  | .tCmpReg rs rd => push (push (push 0#16 0b0100001010#10) rs) rd
  | .tCmn rs rd => push (push (push 0#16 0b0100001011#10) rs) rd
  | .tOrr rs rd => push (push (push 0#16 0b0100001100#10) rs) rd
  | .tMul rs rd => push (push (push 0#16 0b0100001101#10) rs) rd
  | .tBic rs rd => push (push (push 0#16 0b0100001110#10) rs) rd
  | .tMvn rs rd => push (push (push 0#16 0b0100001111#10) rs) rd
  | .tAddHigh h1 h2 rs rd => push (push (push (push (push 0#16 0b01000100#8) (bit h1)) (bit h2)) rs) rd
  | .tCmpHigh h1 h2 rs rd => push (push (push (push (push 0#16 0b01000101#8) (bit h1)) (bit h2)) rs) rd
  | .tMovHigh h1 h2 rs rd => push (push (push (push (push 0#16 0b01000110#8) (bit h1)) (bit h2)) rs) rd
  | .tBx rs sbz => push (push (push 0#16 0b010001110#9) rs) sbz
  | .tBlxReg rs sbz => push (push (push 0#16 0b010001111#9) rs) sbz
  | .tLdrPc rd imm8 => push (push (push 0#16 0b01001#5) rd) imm8
  | .tStrReg ro rb rd => push (push (push (push 0#16 0b0101000#7) ro) rb) rd
  | .tStrhReg ro rb rd => push (push (push (push 0#16 0b0101001#7) ro) rb) rd
  | .tStrbReg ro rb rd => push (push (push (push 0#16 0b0101010#7) ro) rb) rd
  | .tLdrsb ro rb rd => push (push (push (push 0#16 0b0101011#7) ro) rb) rd
  | .tLdrReg ro rb rd => push (push (push (push 0#16 0b0101100#7) ro) rb) rd
  | .tLdrhReg ro rb rd => push (push (push (push 0#16 0b0101101#7) ro) rb) rd
  | .tLdrbReg ro rb rd => push (push (push (push 0#16 0b0101110#7) ro) rb) rd
  | .tLdrsh ro rb rd => push (push (push (push 0#16 0b0101111#7) ro) rb) rd
  | .tStrImm imm5 rb rd => push (push (push (push 0#16 0b01100#5) imm5) rb) rd
  | .tLdrImm imm5 rb rd => push (push (push (push 0#16 0b01101#5) imm5) rb) rd
  | .tStrbImm imm5 rb rd => push (push (push (push 0#16 0b01110#5) imm5) rb) rd
  | .tLdrbImm imm5 rb rd => push (push (push (push 0#16 0b01111#5) imm5) rb) rd
  | .tStrhImm imm5 rb rd => push (push (push (push 0#16 0b10000#5) imm5) rb) rd
  | .tLdrhImm imm5 rb rd => push (push (push (push 0#16 0b10001#5) imm5) rb) rd
  | .tStrSp rd imm8 => push (push (push 0#16 0b10010#5) rd) imm8
  | .tLdrSp rd imm8 => push (push (push 0#16 0b10011#5) rd) imm8
  | .tAddPc rd imm8 => push (push (push 0#16 0b10100#5) rd) imm8
  | .tAddSp rd imm8 => push (push (push 0#16 0b10101#5) rd) imm8
  | .tIncSp imm7 => push (push 0#16 0b101100000#9) imm7
  | .tDecSp imm7 => push (push 0#16 0b101100001#9) imm7
  | .tPush r list => push (push (push 0#16 0b1011010#7) (bit r)) list
  | .tPop r list => push (push (push 0#16 0b1011110#7) (bit r)) list
  | .tBkpt imm8 => push (push 0#16 0b10111110#8) imm8
  | .tUndef1011 bits => push (push 0#16 0b1011#4) bits
  | .tStmia rb list => push (push (push 0#16 0b11000#5) rb) list
  | .tLdmia rb list => push (push (push 0#16 0b11001#5) rb) list
  | .tUndefDE imm8 => push (push 0#16 0b11011110#8) imm8
  | .tSwi imm8 => push (push 0#16 0b11011111#8) imm8
  | .tBCond c simm8 => push (push (push 0#16 0b1101#4) c.bits) simm8
  | .tB simm11 => push (push 0#16 0b11100#5) simm11
  | .tBlxLow offset10 => push (push (push 0#16 0b11101#5) offset10) 0b0#1
  | .tUndef11101 bits => push (push (push 0#16 0b11101#5) bits) 0b1#1
  | .tBlHigh offset11 => push (push 0#16 0b11110#5) offset11
  | .tBlLow offset11 => push (push 0#16 0b11111#5) offset11
  | .pld _ _ _ _ => 0
  | .blxImm _ _ => 0
  | .unallocUncondCop _ _ => 0
  | .ldc2 _ _ _ _ _ _ _ _ => 0
  | .stc2 _ _ _ _ _ _ _ _ => 0
  | .cdp2 _ _ _ _ _ _ => 0
  | .mcr2 _ _ _ _ _ _ => 0
  | .mrc2 _ _ _ _ _ _ => 0
  | .unallocUncond _ => 0
  | .nop => 0
  | .mul _ _ _ _ _ _ => 0
  | .mla _ _ _ _ _ _ => 0
  | .umull _ _ _ _ _ _ => 0
  | .umlal _ _ _ _ _ _ => 0
  | .smull _ _ _ _ _ _ => 0
  | .smlal _ _ _ _ _ _ => 0
  | .swp _ _ _ _ _ => 0
  | .swpb _ _ _ _ _ => 0
  | .unallocMulSwp _ _ _ _ => 0
  | .strh _ _ _ _ _ _ => 0
  | .ldrd _ _ _ _ _ _ => 0
  | .strd _ _ _ _ _ _ => 0
  | .ldrh _ _ _ _ _ _ => 0
  | .ldrsb _ _ _ _ _ _ => 0
  | .ldrsh _ _ _ _ _ _ => 0
  | .mrs _ _ _ _ _ _ => 0
  | .msrReg _ _ _ _ _ _ => 0
  | .bx _ _ _ => 0
  | .blxReg _ _ _ => 0
  | .clz _ _ _ _ _ => 0
  | .qadd _ _ _ _ _ => 0
  | .qsub _ _ _ _ _ => 0
  | .qdadd _ _ _ _ _ => 0
  | .qdsub _ _ _ _ _ => 0
  | .bkpt _ _ _ => 0
  | .smlaXY _ _ _ _ _ _ _ => 0
  | .smlawY _ _ _ _ _ _ => 0
  | .smulwY _ _ _ _ _ _ => 0
  | .smlalXY _ _ _ _ _ _ _ => 0
  | .smulXY _ _ _ _ _ _ _ => 0
  | .unallocMisc _ _ _ _ _ => 0
  | .msrImm _ _ _ _ _ _ => 0
  | .unalloc00110 _ _ _ => 0
  | .armAnd _ _ _ _ _ => 0
  | .armEor _ _ _ _ _ => 0
  | .armSub _ _ _ _ _ => 0
  | .armRsb _ _ _ _ _ => 0
  | .armAdd _ _ _ _ _ => 0
  | .armAdc _ _ _ _ _ => 0
  | .armSbc _ _ _ _ _ => 0
  | .armRsc _ _ _ _ _ => 0
  | .armTst _ _ _ _ => 0
  | .armTeq _ _ _ _ => 0
  | .armCmp _ _ _ _ => 0
  | .armCmn _ _ _ _ => 0
  | .armOrr _ _ _ _ _ => 0
  | .armMov _ _ _ _ _ => 0
  | .armBic _ _ _ _ _ => 0
  | .armMvn _ _ _ _ _ => 0
  | .undefArm _ _ _ => 0
  | .ldrt _ _ _ _ _ => 0
  | .ldrbt _ _ _ _ _ => 0
  | .strt _ _ _ _ _ => 0
  | .strbt _ _ _ _ _ => 0
  | .ldr _ _ _ _ _ _ => 0
  | .ldrb _ _ _ _ _ _ => 0
  | .str _ _ _ _ _ _ => 0
  | .strb _ _ _ _ _ _ => 0
  | .ldm1 _ _ _ _ _ => 0
  | .ldm2 _ _ _ _ _ => 0
  | .ldm3 _ _ _ _ _ => 0
  | .stm1 _ _ _ _ _ => 0
  | .stm2 _ _ _ _ _ => 0
  | .b _ _ => 0
  | .bl _ _ => 0
  | .mcrr _ _ _ _ _ _ => 0
  | .mrrc _ _ _ _ _ _ => 0
  | .unallocCop _ _ => 0
  | .ldc _ _ _ _ _ _ _ _ _ => 0
  | .stc _ _ _ _ _ _ _ _ _ => 0
  | .cdp _ _ _ _ _ _ _ => 0
  | .mcr _ _ _ _ _ _ _ => 0
  | .mrc _ _ _ _ _ _ _ => 0
  | .armSwi _ _ => 0

/-- An instruction word with the state it belongs to: the code of one instruction. -/
inductive Code where
  | arm (w : Word)
  | thumb (h : Half)
  deriving DecidableEq, Repr

/-- The instruction of a code. -/
def decode : Code → Instr
  | .arm w => decodeArm w
  | .thumb h => decodeThumb h

/-- Whether an instruction is one of the Thumb rows. -/
def Instr.isThumb : Instr → Bool
  | .pld .. => false
  | .blxImm .. => false
  | .unallocUncondCop .. => false
  | .ldc2 .. => false
  | .stc2 .. => false
  | .cdp2 .. => false
  | .mcr2 .. => false
  | .mrc2 .. => false
  | .unallocUncond .. => false
  | .nop => false
  | .mul .. => false
  | .mla .. => false
  | .umull .. => false
  | .umlal .. => false
  | .smull .. => false
  | .smlal .. => false
  | .swp .. => false
  | .swpb .. => false
  | .unallocMulSwp .. => false
  | .strh .. => false
  | .ldrd .. => false
  | .strd .. => false
  | .ldrh .. => false
  | .ldrsb .. => false
  | .ldrsh .. => false
  | .mrs .. => false
  | .msrReg .. => false
  | .bx .. => false
  | .blxReg .. => false
  | .clz .. => false
  | .qadd .. => false
  | .qsub .. => false
  | .qdadd .. => false
  | .qdsub .. => false
  | .bkpt .. => false
  | .smlaXY .. => false
  | .smlawY .. => false
  | .smulwY .. => false
  | .smlalXY .. => false
  | .smulXY .. => false
  | .unallocMisc .. => false
  | .msrImm .. => false
  | .unalloc00110 .. => false
  | .armAnd .. => false
  | .armEor .. => false
  | .armSub .. => false
  | .armRsb .. => false
  | .armAdd .. => false
  | .armAdc .. => false
  | .armSbc .. => false
  | .armRsc .. => false
  | .armTst .. => false
  | .armTeq .. => false
  | .armCmp .. => false
  | .armCmn .. => false
  | .armOrr .. => false
  | .armMov .. => false
  | .armBic .. => false
  | .armMvn .. => false
  | .undefArm .. => false
  | .ldrt .. => false
  | .ldrbt .. => false
  | .strt .. => false
  | .strbt .. => false
  | .ldr .. => false
  | .ldrb .. => false
  | .str .. => false
  | .strb .. => false
  | .ldm1 .. => false
  | .ldm2 .. => false
  | .ldm3 .. => false
  | .stm1 .. => false
  | .stm2 .. => false
  | .b .. => false
  | .bl .. => false
  | .mcrr .. => false
  | .mrrc .. => false
  | .unallocCop .. => false
  | .ldc .. => false
  | .stc .. => false
  | .cdp .. => false
  | .mcr .. => false
  | .mrc .. => false
  | .armSwi .. => false
  | .tLslImm .. => true
  | .tLsrImm .. => true
  | .tAsrImm .. => true
  | .tAddReg .. => true
  | .tSubReg .. => true
  | .tAddImm3 .. => true
  | .tSubImm3 .. => true
  | .tMovImm .. => true
  | .tCmpImm .. => true
  | .tAddImm8 .. => true
  | .tSubImm8 .. => true
  | .tAnd .. => true
  | .tEor .. => true
  | .tLslReg .. => true
  | .tLsrReg .. => true
  | .tAsrReg .. => true
  | .tAdc .. => true
  | .tSbc .. => true
  | .tRor .. => true
  | .tTst .. => true
  | .tNeg .. => true
  | .tCmpReg .. => true
  | .tCmn .. => true
  | .tOrr .. => true
  | .tMul .. => true
  | .tBic .. => true
  | .tMvn .. => true
  | .tAddHigh .. => true
  | .tCmpHigh .. => true
  | .tMovHigh .. => true
  | .tBx .. => true
  | .tBlxReg .. => true
  | .tLdrPc .. => true
  | .tStrReg .. => true
  | .tStrhReg .. => true
  | .tStrbReg .. => true
  | .tLdrsb .. => true
  | .tLdrReg .. => true
  | .tLdrhReg .. => true
  | .tLdrbReg .. => true
  | .tLdrsh .. => true
  | .tStrImm .. => true
  | .tLdrImm .. => true
  | .tStrbImm .. => true
  | .tLdrbImm .. => true
  | .tStrhImm .. => true
  | .tLdrhImm .. => true
  | .tStrSp .. => true
  | .tLdrSp .. => true
  | .tAddPc .. => true
  | .tAddSp .. => true
  | .tIncSp .. => true
  | .tDecSp .. => true
  | .tPush .. => true
  | .tPop .. => true
  | .tBkpt .. => true
  | .tUndef1011 .. => true
  | .tStmia .. => true
  | .tLdmia .. => true
  | .tUndefDE .. => true
  | .tSwi .. => true
  | .tBCond .. => true
  | .tB .. => true
  | .tBlxLow .. => true
  | .tUndef11101 .. => true
  | .tBlHigh .. => true
  | .tBlLow .. => true

/-- The code of an instruction. -/
def encode (i : Instr) : Code := if i.isThumb then .thumb (encodeThumb i) else .arm (encodeArm i)

/-- Why bytes do not decode. -/
inductive DecodeError where
  /-- Fewer bytes than one instruction has. -/
  | truncated
  deriving DecidableEq, Repr

/-- Bytes, lowest address first, as a number: 20_memory.md R86. -/
def assemble (big : Bool) (bytes : List Byte) : Nat :=
  (if big then bytes else bytes.reverse).foldl (fun n b => n * 256 + b.toNat) 0

/-- The code that bytes hold, lowest address first: two bytes in Thumb state, four in ARM state. -/
def codeOfBytes (thumb big : Bool) (bytes : List Byte) : Code :=
  if thumb then .thumb (BitVec.ofNat 16 (assemble big bytes)) else .arm (BitVec.ofNat 32 (assemble big bytes))

/-- The first instruction of some bytes and the bytes after it (30_encoding.md R150: every word decodes). -/
def decodeBytes (thumb big : Bool) (bytes : List Byte) : Except DecodeError (Instr × List Byte) :=
  let n := if thumb then 2 else 4
  if bytes.length < n then .error .truncated
  else .ok (decode (codeOfBytes thumb big (bytes.take n)), bytes.drop n)

/-- The instruction the decoder reads from `nbits` bits numbered as spec/opcode_table.json numbers them: 16 bits
are a Thumb halfword, 32 an ARM word; the bytes are little-endian. -/
def decodeTableWord (nbits w : Nat) : Option Instr :=
  let bytes : List Byte := [BitVec.ofNat 8 w, BitVec.ofNat 8 (w / 0x100), BitVec.ofNat 8 (w / 0x10000),
    BitVec.ofNat 8 (w / 0x1000000)]
  match decodeBytes (decide (nbits ≤ 16)) false (if nbits ≤ 16 then bytes.take 2 else bytes) with
  | .ok (i, _) => some i
  | .error _ => none

end Sys2Proof
end

