-- ==== Sys2Proof/Config.lean ====
section
/-! DEFINITION. What is fixed for a run (spec/00_scope.md R11) and the free values: what the spec leaves
open is an opaque constant with no body, so that no proof can see what it is. -/

namespace Sys2Proof

/-- The pins and platform parameters that no step changes (00_scope.md R11). -/
structure Pins where
  /-- `CFGBIGEND`: HIGH is big-endian (20_memory.md R85; entry 1). -/
  bigEndian : Bool
  /-- `CFGHIVECS`: HIGH puts the vectors at 0xFFFF0000 (60_exceptions.md R555; entry 2). -/
  hiVecs : Bool
  /-- `CFGDISLTBIT`: HIGH disables loads to the PC, which are then refused (92_eei_decisions.md D3; entry 3). -/
  disLTBit : Bool
  /-- `DBGEN` (60_exceptions.md R601; entry 4). -/
  dbgEn : Bool
  /-- `UNIFIED_MEMORY`: the fetch sees the bytes that stores write (20_memory.md R81; entry 6). -/
  unifiedMemory : Bool
  /-- `COMMS_VERSION`, bits 31:28 of the comms control register (10_state.md R62; entry 5). -/
  commsVersion : BitVec 4
  /-- `TAPID[31:0]`: what the ID code register captures (65_debug_interface.md R701, R706; entry 45). -/
  tapId : Word
  deriving DecidableEq, Repr

/-- The pins as this model's reset state has them (entries 1 to 6, 45). -/
def Pins.default : Pins where
  bigEndian := false
  hiVecs := false
  disLTBit := false
  dbgEn := false
  unifiedMemory := true
  commsVersion := 0b0101
  tapId := 0

namespace Config

/-- Whether `STORE_PC_OFFSET` is 12 (else 8): 93_implementation_defined.md U16 (entry 7). -/
opaque storePcOffsetIs12 : Bool

/-- The word `MRC p14, 0, Rd, c1, c0` reads while R = 0: U21 (entry 20). Indexed by the step counter. -/
opaque commsUnread : Nat → Word

/-- The word left in the comms data write register by a write while W = 1: U21 (entry 20). -/
opaque commsOverwritten : Nat → Word

/-- The word a store multiple with write-back stores for a base register that is in the list and not
the lowest: 44_arm_load_store_multiple.md R343 (entry 21). -/
opaque storedBase : Nat → Word

/-- The word `MCR` sends for r15: 46_arm_coprocessor.md R401 (entry 22). -/
opaque sentPc : Nat → Word

/-- The value of one general register after a reset during the run: 60_exceptions.md R562 (entry 17).
The second argument is the register's place in the register file. -/
opaque resetRegister : Nat → Nat → Word

/-- The value of one SPSR after a reset during the run (entry 17). -/
opaque resetSpsr : Nat → Nat → Word

/-- `CPSR[31:8]` after a reset during the run (entry 17). -/
opaque resetCpsr : Nat → BitVec 24

/-- The registers that `DBGnTRST` during the run leaves with no stated value: the comms data and the watchpoint values and
masks (entry 11). The second argument numbers them. -/
opaque debugResetWord : Nat → Nat → Word

/-- Whether a data access that a watchpoint matches in monitor mode completes: 60_exceptions.md R603,
91_not_in_source.md N22 (entry 31). -/
opaque watchCompletes : Nat → Bool

/-- The CHAINOUT latch of watchpoint unit 1 where the spec does not fix it: after fetches ahead that may have been made and
would change it (second argument 0), and after a selected read that aborts (1): 10_state.md R71, R75 (entry 46). -/
opaque chainOut : Nat → Nat → Bool

/-- Whether a reset during the run lets the abandoned instruction change the byte at an address: 70_reset_and_hazards.md
R630, R636 (entry 17). -/
opaque resetWrote : Nat → Nat → Bool

/-- Whether the instruction that a reset abandons still makes its transfer to a coprocessor or a debug register: R630
(entry 17). -/
opaque resetTransferred : Nat → Bool

/-- What a debugger reads at an EmbeddedICE-RT address that the spec does not describe: 10_state.md R66 (entry 47). -/
opaque undescribedRegister : Nat → Word

/-- SYSCOMP, bit 3 of the debug status register, outside debug state: 10_state.md R68 (entry 48). -/
opaque sysComp : Nat → Bool

/-- The serial register of scan chain 2 after `DBGnTRST` during the run (entry 11). -/
opaque resetChain2 : Nat → BitVec 38

/-- The RANGE and CHAIN inputs of watchpoint unit 1, which nothing is said to drive (entry 31). -/
opaque unit1Inputs : BitVec 2

end Config

end Sys2Proof
end

