-- ==== Sys2Proof/Machine/State.lean ====
section
/-! DEFINITION. The state of the machine, its faults and refusals, and the state after reset. Plain data.
INVENTORY.md lists every field with the rule that names it and its reset value. -/

namespace Sys2Proof.Machine

/-- The exceptions (60_exceptions.md R550). `BKPT` and a monitor-mode breakpoint are Prefetch Aborts. -/
inductive Exception where
  | reset | undefined | swi | prefetchAbort | dataAbort | irq | fiq
  deriving DecidableEq, Repr

/-- The size of one access (20_memory.md R93). -/
inductive Size where
  | byte | half | word
  deriving DecidableEq, Repr

/-- What the core shows the memory system of one access (20_memory.md R90, R95, R96; 92_eei_decisions.md D8). -/
structure Access where
  /-- An instruction fetch; else a data access. -/
  fetch : Bool
  /-- The address as driven, low bits included. -/
  addr : Word
  size : Size
  write : Bool
  /-- `InTRANS` or `DnTRANS`: true is privileged. -/
  priv : Bool
  /-- The mode shown (`DnM` indicates User for a forced-User access). -/
  mode : ModeBits
  /-- `DLOCK`. -/
  locked : Bool
  deriving DecidableEq, Repr

/-- What an access rule of the platform answers. -/
inductive PlatformAnswer where
  /-- `IABORT` or `DABORT` (20_memory.md R101). -/
  | abort
  /-- `DBGIEBKPT` or `DBGDEWPT` (60_exceptions.md R601). -/
  | debugInput
  /-- The memory system ignores a write: it ends normally and changes no byte (00_scope.md R11, 20_memory.md R112). -/
  | ignoreWrite
  deriving DecidableEq, Repr

/-- One row of the platform's answer function (92_eei_decisions.md D8; entry 15): accesses of this kind with an
address from `lo` to `hi`; a field that is `none` matches every access. -/
structure AccessRule where
  fetch : Bool
  lo : Word
  hi : Word
  size : Option Size
  write : Option Bool
  priv : Option Bool
  mode : Option ModeBits
  locked : Option Bool
  answer : PlatformAnswer
  deriving DecidableEq, Repr

/-- A coprocessor's answer to one coprocessor instruction (46_arm_coprocessor.md R391, R398; entry 16). -/
inductive CopAnswer where
  | absent
  /-- Busy-wait: the instruction is tried again at the next step (R394; entry 39). -/
  | wait
  /-- Accepted. `MRC` takes `first`; `MRRC` takes `first` and `second`; `STC` stores `first` and the words of
  `more`; `LDC` moves as many words as `first` and `more` count. -/
  | accept (first second : Word) (more : List Word)
  deriving DecidableEq, Repr

/-- What a coprocessor was given by one accepted instruction (R398). -/
structure CopMessage where
  instruction : Word
  priv : Bool
  sent : List Word
  deriving DecidableEq, Repr

/-- One attached coprocessor: the answers it has yet to give, what it answers for ever after them, and what it has
received. -/
structure CopPort where
  num : BitVec 4
  answers : List CopAnswer
  rest : CopAnswer := .absent
  received : List CopMessage
  deriving DecidableEq, Repr

/-- A watchpoint unit (10_state.md R70). -/
structure Watchpoint where
  addrValue : Word
  addrMask : Word
  dataValue : Word
  dataMask : Word
  ctlValue : BitVec 9
  ctlMask : BitVec 8
  deriving DecidableEq, Repr

/-- The debug registers of EmbeddedICE-RT, the comms channel of coprocessor 14, and the TAP registers that last
(10_state.md R61 to R73; 65_debug_interface.md R704, R706). -/
structure DebugUnit where
  /-- Debug control: bit 5 disable, 4 monitor mode, 3 single-step, 2 INTDIS, 1 DBGRQ, 0 DBGACK (R67). -/
  control : BitVec 6
  /-- Vector catch (R69). -/
  vectorCatch : BitVec 8
  wp0 : Watchpoint
  wp1 : Watchpoint
  /-- The logic that holds the comparators disabled until the first access to scan chain 2 (R67). -/
  held : Bool
  commsRead : Word
  commsWrite : Word
  /-- R: new data in the comms data read register (R62). -/
  commsR : Bool
  /-- W: the comms data write register is not free (R62). -/
  commsW : Bool
  /-- DbgAbt (R65). -/
  dbgAbt : Bool
  tapInstruction : BitVec 4
  scanChain : BitVec 5
  /-- The serial register of scan chain 2, which the next scan of that chain shifts out (65_debug_interface.md R709). -/
  chain2 : BitVec 38
  deriving DecidableEq, Repr

/-- The levels of the input pins as registered (10_state.md R74; true is HIGH). -/
structure Lines where
  nFIQ : Bool
  nIRQ : Bool
  edbgrq : Bool
  dbgExt : BitVec 2
  deriving DecidableEq, Repr

/-- What can happen outside the core between two instructions (00_scope.md R17; entries 14, 31). -/
inductive InputEvent where
  /-- `nRESET` driven LOW and HIGH again (60_exceptions.md R562; entry 17). -/
  | reset
  | nFIQ (high : Bool)
  | nIRQ (high : Bool)
  | edbgrq (high : Bool)
  | dbgExt (levels : BitVec 2)
  /-- `DBGnTRST` pulsed (10_state.md R73). -/
  | debugReset
  /-- UPDATE-IR: a TAP instruction (65_debug_interface.md R704). -/
  | tapInstruction (code : BitVec 4)
  /-- UPDATE-DR: the selected data register takes these bits, bit 37 to bit 0 (R706, R709). -/
  | tapData (bits : BitVec 38)
  /-- The memory system changes a byte on its own. -/
  | memoryByte (addr : Word) (value : Byte)
  /-- The same in the instruction memory of a split system (20_memory.md R81). -/
  | instructionByte (addr : Word) (value : Byte)
  /-- The platform's answer function is replaced (92_eei_decisions.md D8). -/
  | accessRules (rules : List AccessRule)
  /-- A coprocessor is attached, or gives new answers. -/
  | coprocessor (port : CopPort)
  deriving DecidableEq, Repr

/-- The state of the machine. -/
structure State where
  /-- The 30 general registers other than r15 (10_state.md R31): r0 to r14 of User mode, r8_fiq to r14_fiq, then
  r13 and r14 of irq, svc, abt, und. -/
  regs : Vector Word 30
  /-- The address of the instruction to execute (00_scope.md R13). -/
  pc : Word
  cpsr : Word
  spsrFiq : Word
  spsrIrq : Word
  spsrSvc : Word
  spsrAbt : Word
  spsrUnd : Word
  /-- Memory as the data interface sees it (20_memory.md R80, R81). -/
  mem : List Host.Cell
  /-- Instruction memory of a split system; unused when `pins.unifiedMemory` (R81, R116; entry 6). -/
  imem : List Host.Cell
  pins : Pins
  lines : Lines
  dbg : DebugUnit
  /-- The CHAINOUT latch of watchpoint unit 1 (10_state.md R71; entry 46). -/
  chainOut : Bool
  cops : List CopPort
  accessRules : List AccessRule
  /-- Input events still to come, one batch for each step (entry 14). -/
  inputs : List (List InputEvent)
  /-- Byte addresses inside the fetch window that a write has changed since the last refill (R116, R117). -/
  stale : List Word
  /-- The pc has advanced past the top of the address space (10_state.md R43; entry 18). -/
  pcWrapped : Bool
  /-- The last instruction was a User-bank LDM or STM (44_arm_load_store_multiple.md R346, R351; entry 23). -/
  userBankHazard : Bool
  /-- The exception just entered, until an instruction executes (60_exceptions.md R612; entry 34). -/
  vectorEntered : Option Exception
  /-- The model's own step counter, read by the free values (entry 20). -/
  tick : Nat
  deriving DecidableEq, Repr

/-- Why the machine stops. -/
inductive Fault where
  /-- `CPSR.M` holds no legal mode: raised by every step until a reset (10_state.md R50, 92_eei_decisions.md D11).
  Safe: the spec says the core is stuck. -/
  | unrecoverableMode
  /-- The core enters debug state, which ends the modelled run: raised by a step or a data access that meets a debug
  request, a halt-mode breakpoint, watchpoint or vector catch, or by `BKPT` in halt mode (92_eei_decisions.md D13;
  60_exceptions.md R606 to R615; entry 32). Safe: nothing is claimed beyond. -/
  | debugState
  deriving DecidableEq, Repr

/-- Why an instruction, a step or an input event has no meaning. Every one is safe: the model stops where the spec
gives no effect. -/
inductive Refusal where
  /-- An instruction whose meaning is not written; raised by Dispatch only. -/
  | notModelled (mnemonic : String)
  /-- `MSR` that would change T (93_implementation_defined.md U2). Raised by MSR. -/
  | msrChangesT
  /-- The SPSR of User or System mode (U4). Raised by MRS, MSR, data processing with S and Rd = 15, LDM (3). -/
  | noSpsr
  /-- A PC that would be misaligned in ARM state, or a load to the PC from an unaligned address (U5,
  20_memory.md R99). Raised by writes to the PC. -/
  | misalignedPc
  /-- An unallocated word (U6). Raised by the UNALLOCATED rows and PLD with bits 25 and 4 set. -/
  | unallocated
  /-- `MSR` with an empty field mask (U7). Raised by MSR. -/
  | msrNoFields
  /-- A should-be-zero or should-be-one field with another value (U8). Raised by any instruction that has one. -/
  | sbzSbo
  /-- An empty register list (U9). Raised by load and store multiple. -/
  | emptyRegisterList
  /-- A Thumb high-register form with two low registers, or CMP with r15 as its first operand (U10). -/
  | thumbHighForm
  /-- ARM `BKPT` with a condition other than AL (U12). -/
  | bkptCondition
  /-- r15 where it may not be (U13, U24). Raised by register shifts, CLZ, BLX, MRS, MSR, MCRR, MRRC, LDC, STC. -/
  | r15Operand
  /-- Forbidden registers of a multiply or DSP instruction (U14). -/
  | multiplyRegisters
  /-- Forbidden registers of a single load, store or swap, or the reserved index mode (U15, U17). -/
  | loadStoreRegisters
  /-- Forbidden registers or forms of a multiple transfer (U17). -/
  | blockTransferForm
  /-- A halfword at an odd address or a doubleword at an address that is no multiple of 8 (20_memory.md R99). -/
  | unalignedAccess
  /-- `MCR` to the comms control register (U20). -/
  | commsControlWrite
  /-- Any other coprocessor 14 instruction (U22). -/
  | cp14Encoding
  /-- A load to the PC with `CFGDISLTBIT` HIGH (92_eei_decisions.md D3). Raised by LDR, LDM (1) and POP. -/
  | disLTBitHigh
  /-- `MRRC` with one register for both results (U24). -/
  | mrrcSameRegister
  /-- Execution past the top of the address space (10_state.md R43, D16). Raised by step. -/
  | sequentialWrap
  /-- An instruction in the fetch window that a store changed (20_memory.md R117, D7). Raised by step. -/
  | stalePrefetch
  /-- A banked register straight after a User-bank LDM or STM (U17). Raised by step. -/
  | userBankHazard
  /-- A monitor-mode debug setting the core does not support: data-dependent, RANGE, external break and watchpoints
  (60_exceptions.md R605). Raised by accesses. -/
  | debugUnsupported
  /-- EXTEST or INTEST with scan chain 1, or EXTEST with scan chain 2, outside debug state (65_debug_interface.md
  R705, R708). Raised by the input event that loads the instruction. -/
  | scanChain
  deriving DecidableEq, Repr

/-- A watchpoint unit after debug reset (92_eei_decisions.md D13; entry 11). -/
def Watchpoint.reset : Watchpoint where
  addrValue := 0
  addrMask := 0
  dataValue := 0
  dataMask := 0
  ctlValue := 0
  ctlMask := 0

/-- The debug unit after debug reset: monitor mode, comparators held (10_state.md R67, R73; D13, D22; entries 11, 49). -/
def DebugUnit.reset : DebugUnit where
  control := 0b010000
  vectorCatch := 0
  wp0 := .reset
  wp1 := .reset
  held := true
  commsRead := 0
  commsWrite := 0
  commsR := false
  commsW := false
  dbgAbt := false
  tapInstruction := 0b1110
  scanChain := 3
  chain2 := 0

/-- The input pins with nothing asserted (93_implementation_defined.md section 3; entry 14). -/
def Lines.reset : Lines where
  nFIQ := true
  nIRQ := true
  edbgrq := false
  dbgExt := 0

/-- The machine right after reset (10_state.md R57, R58; 70_reset_and_hazards.md R630, R634): Supervisor mode, I and F
set, ARM state, the pc at the reset vector. The registers and PSR bits the spec leaves indeterminate are 0 (entries
8, 9, 10, unsafe). -/
def State.reset : State where
  regs := Vector.replicate 30 0
  pc := 0
  cpsr := 0xD3
  spsrFiq := 0
  spsrIrq := 0
  spsrSvc := 0
  spsrAbt := 0
  spsrUnd := 0
  mem := []
  imem := []
  pins := .default
  lines := .reset
  dbg := .reset
  chainOut := false
  cops := []
  accessRules := []
  inputs := []
  stale := []
  pcWrapped := false
  userBankHazard := false
  vectorEntered := some .reset
  tick := 0

/-- What a meaning and a step answer. -/
abbrev Result := Host.Outcome State Fault Refusal

end Sys2Proof.Machine
end

