-- ==== Sys2Proof/Machine/Debug.lean ====
section
/-! DEFINITION. The debug registers, the watchpoint units of EmbeddedICE-RT and how they compare an access
(spec/10_state.md R62 to R73; 60_exceptions.md R600 to R612; entries 31, 46). -/

namespace Sys2Proof.Machine

/-- A watchpoint unit after `DBGnTRST` during the run: ENABLE is 0 (D13), the rest free values (entry 11); bit 3 of the
control mask is always clear (10_state.md R70). -/
def Watchpoint.pulsed (tick k : Nat) : Watchpoint where
  addrValue := Config.debugResetWord tick k
  addrMask := Config.debugResetWord tick (k + 1)
  dataValue := Config.debugResetWord tick (k + 2)
  dataMask := Config.debugResetWord tick (k + 3)
  ctlValue := (fld 0 8 (Config.debugResetWord tick (k + 4))).setWidth 9
  ctlMask := fld 0 8 (Config.debugResetWord tick (k + 5)) &&& 0b11110111

/-- The debug unit after `DBGnTRST` during the run (10_state.md R73; D13; entry 11): as after power-on, but what has no stated
value is a free value. -/
def DebugUnit.pulsed (tick : Nat) : DebugUnit :=
  { DebugUnit.reset with
    wp0 := .pulsed tick 2
    wp1 := .pulsed tick 8
    commsRead := Config.debugResetWord tick 0
    commsWrite := Config.debugResetWord tick 1
    chain2 := Config.resetChain2 tick }

/-- Debug control bit 4: monitor mode (else halt mode). -/
def DebugUnit.monitorMode (d : DebugUnit) : Bool := flag 4 d.control

/-- Debug control bit 2: interrupts inhibited (R67). -/
def DebugUnit.intDis (d : DebugUnit) : Bool := flag 2 d.control

/-- Debug control bit 1: a debug request (R67). -/
def DebugUnit.request (d : DebugUnit) : Bool := flag 1 d.control

/-- The comparators work: not held since debug reset and not disabled by control bit 5 (R67). -/
def DebugUnit.comparing (d : DebugUnit) : Bool := !d.held && !flag 5 d.control

/-- The comms control register as read (10_state.md R62, 90_conflicts.md C15). -/
def commsControl (s : State) : Word :=
  push (push (push (push 0 s.pins.commsVersion) 0#26) (bit s.dbg.commsW)) (bit s.dbg.commsR)

/-- What the debug logic makes of one access. -/
inductive DebugMatch where
  | none
  | hit
  /-- A setting monitor mode does not support (60_exceptions.md R605). -/
  | unsupported
  deriving DecidableEq, Repr

/-- The address comparator of a unit (R72). -/
def Watchpoint.addressMatches (w : Watchpoint) (addr : Word) : Bool :=
  ((w.addrValue ^^^ addr) &&& ~~~w.addrMask) == 0

/-- `DMAS` of an access (20_memory.md R93), or for a fetch `ITBIT` in bit 0 (R88). -/
def Access.sizeBits (a : Access) : BitVec 2 :=
  if a.fetch then (if a.size = .half then 1 else 0)
  else match a.size with
    | .byte => 0
    | .half => 1
    | .word => 2

/-- The control bus bits 7 to 0 as a unit sees them (R71): RANGE, CHAIN, DBGEXT, nTRANS, interface, size, direction. -/
def controlBus (range chain ext : Bool) (a : Access) : BitVec 8 :=
  push (push (push (push (push (push (push 0 (bit range)) (bit chain)) (bit ext)) (bit a.priv)) (bit (!a.fetch)))
    a.sizeBits) (bit a.write)

/-- The control bits a unit leaves out: its mask, with bit 3 never left out (R70), and for an instruction comparison
bits 2 and 0 (R71). -/
def Watchpoint.controlIgnored (w : Watchpoint) (fetch : Bool) : BitVec 8 :=
  (w.ctlMask &&& 0b11110111) ||| (if fetch then 0b00000101 else 0)

/-- The address and control field comparators of a unit select an access (R71, R72). -/
def Watchpoint.selects (w : Watchpoint) (range chain ext : Bool) (a : Access) : Bool :=
  w.addressMatches a.addr &&
    (((fld 0 8 w.ctlValue ^^^ controlBus range chain ext a) &&& ~~~(w.controlIgnored a.fetch)) == 0)

/-- The data field comparator of a unit (R72). -/
def Watchpoint.dataMatches (w : Watchpoint) (bus : Word) : Bool := ((w.dataValue ^^^ bus) &&& ~~~w.dataMask) == 0

/-- One unit's match (R72). In monitor mode a unit that compares data or RANGE is unsupported (R605), once it is enabled and
selects the access; a unit without ENABLE, which R605 does not except, asserts nothing and is never unsupported (DESIGN
CHOICE, entry 59). -/
def Watchpoint.answer (w : Watchpoint) (monitor range chain ext : Bool) (a : Access) (bus : Word) : DebugMatch :=
  if !flag 8 w.ctlValue || !w.selects range chain ext a then .none
  else if monitor && (w.dataMask != 0xFFFFFFFF || !flag 7 w.ctlMask) then .unsupported
  else if w.dataMatches bus then .hit
  else .none

/-- The comparators see accesses: `DBGEN` is HIGH (60_exceptions.md R601) and they are neither held nor disabled. -/
def comparatorsOn (s : State) : Bool := s.pins.dbgEn && s.dbg.comparing

/-- Watchpoint unit 1 selects an access; nothing is said to drive its RANGE and CHAIN inputs (entry 31). -/
def unit1Selects (s : State) (a : Access) : Bool :=
  comparatorsOn s && s.dbg.wp1.selects (flag 1 Config.unit1Inputs) (flag 0 Config.unit1Inputs) (flag 1 s.lines.dbgExt) a

/-- The CHAINOUT latch after an access whose data field comparison in unit 1 answers `data` (R71; entry 46): written
with it when the address and control field comparators select the access, ENABLE or not. -/
def latchAfter (s : State) (a : Access) (data : Bool) : Bool := if unit1Selects s a then data else s.chainOut

/-- Both units on one access with the word on its data bus (R71, R72): unit 0 has unit 1's CHAINOUT latch and address
comparator as CHAIN and RANGE. RANGE compares the address of this access, also where bit 3 of unit 1's control value
names the other interface, for which the spec does not say what RANGEIN is (DESIGN CHOICE, entry 50). In monitor mode too
CHAIN is the latch as R71 says, also where a unit 1 without ENABLE wrote it by comparing data, so that unit 0 hits or not by
that data and the access is not refused (DESIGN CHOICE, entry 59). -/
def unitsMatch (s : State) (a : Access) (bus : Word) : DebugMatch :=
  if !comparatorsOn s then .none
  else
    let m := s.dbg.monitorMode
    let a0 := s.dbg.wp0.answer m (s.dbg.wp1.addressMatches a.addr) s.chainOut (flag 0 s.lines.dbgExt) a bus
    let a1 := s.dbg.wp1.answer m (flag 1 Config.unit1Inputs) (flag 0 Config.unit1Inputs) (flag 1 s.lines.dbgExt) a bus
    if a0 = .unsupported ∨ a1 = .unsupported then .unsupported
    else if a0 = .hit ∨ a1 = .hit then .hit
    else .none

/-- A platform rule covers an access. -/
def AccessRule.covers (r : AccessRule) (a : Access) : Bool :=
  (r.fetch == a.fetch) && decide (r.lo ≤ a.addr) && decide (a.addr ≤ r.hi) && (r.size.getD a.size == a.size) &&
    (r.write.getD a.write == a.write) && (r.priv.getD a.priv == a.priv) && (r.mode.getD a.mode == a.mode) &&
    (r.locked.getD a.locked == a.locked)

/-- The platform aborts an access (20_memory.md R101, D8). -/
def platformAborts (s : State) (a : Access) : Bool :=
  s.accessRules.any fun r => (r.answer == .abort) && r.covers a

/-- The memory system ignores an access: a write that ends normally and changes no byte (00_scope.md R11, 20_memory.md
R112; entry 15). -/
def platformIgnores (s : State) (a : Access) : Bool :=
  a.write && s.accessRules.any fun r => (r.answer == .ignoreWrite) && r.covers a

/-- Everything the debug logic makes of an access: the units, and `DBGIEBKPT` or `DBGDEWPT`, which monitor mode does
not support (60_exceptions.md R601, R605). These two inputs act while the unit is held after debug reset, and with debug
control bit 5 set, too (DESIGN CHOICE, entry 53). -/
def debugMatch (s : State) (a : Access) (bus : Word) : DebugMatch :=
  if s.pins.dbgEn && s.accessRules.any (fun r => (r.answer == .debugInput) && r.covers a) then
    (if s.dbg.monitorMode then .unsupported else .hit)
  else unitsMatch s a bus

/-- A vector is caught (60_exceptions.md R612; 10_state.md R69): its bit is set and the exception was just entered;
never an abort in monitor mode. Debug control bit 5 does not stop it, since R67 says that the bit disables the comparators;
the logic that holds the unit after debug reset does (DESIGN CHOICE, entry 53). -/
def vectorCaught (s : State) : Bool :=
  s.pins.dbgEn && !s.dbg.held && match s.vectorEntered with
    | none => false
    | some .reset => flag 0 s.dbg.vectorCatch
    | some .undefined => flag 1 s.dbg.vectorCatch
    | some .swi => flag 2 s.dbg.vectorCatch
    | some .prefetchAbort => flag 3 s.dbg.vectorCatch && !s.dbg.monitorMode
    | some .dataAbort => flag 4 s.dbg.vectorCatch && !s.dbg.monitorMode
    | some .irq => flag 6 s.dbg.vectorCatch
    | some .fiq => flag 7 s.dbg.vectorCatch

end Sys2Proof.Machine
end

