-- ==== Sys2Proof/Machine/Flags.lean ====
section
/-! DEFINITION. The fields of a status register and every flag computation (spec/10_state.md R46 to R50;
40_arm_data_processing.md R194; 41_arm_multiply_dsp.md R239). -/

namespace Sys2Proof.Machine

/-- N, bit 31 (R46; entry 27). -/
def psrN (p : Word) : Bool := flag 31 p
/-- Z, bit 30. -/
def psrZ (p : Word) : Bool := flag 30 p
/-- C, bit 29. -/
def psrC (p : Word) : Bool := flag 29 p
/-- V, bit 28. -/
def psrV (p : Word) : Bool := flag 28 p
/-- Q, bit 27. -/
def psrQ (p : Word) : Bool := flag 27 p
/-- I, bit 7: IRQ disable. -/
def psrI (p : Word) : Bool := flag 7 p
/-- F, bit 6: FIQ disable. -/
def psrF (p : Word) : Bool := flag 6 p
/-- T, bit 5: Thumb state. -/
def psrT (p : Word) : Bool := flag 5 p
/-- M, bits 4:0. -/
def psrM (p : Word) : ModeBits := fld 0 5 p

/-- A status register with its mode bits replaced. -/
def setM (p : Word) (m : ModeBits) : Word := (p &&& 0xFFFFFFE0) ||| m.setWidth 32

/-- A status register with N and Z replaced. -/
def setNZ (p : Word) (n z : Bool) : Word := setBit (setBit p 31 n) 30 z

/-- A status register with N, Z and C replaced. -/
def setNZC (p : Word) (n z c : Bool) : Word := setBit (setNZ p n z) 29 c

/-- A status register with N, Z, C and V replaced. -/
def setNZCV (p : Word) (n z c v : Bool) : Word := setBit (setNZC p n z c) 28 v

/-- N and Z of a result (R194). -/
def setResultNZ (p v : Word) : Word := setNZ p v.msb (v == 0)

/-- N, Z of a result and the shifter's carry: the flags of a logical instruction (R194). -/
def setLogical (p v : Word) (carry : Bool) : Word := setNZC p v.msb (v == 0) carry

/-- Q set where an instruction overflowed, and left as it was where it did not (41_arm_multiply_dsp.md R239). -/
def stickyQ (p : Word) (overflowed : Bool) : Word := if overflowed then setBit p 27 true else p

/-- A result with its carry and overflow. -/
structure AluResult where
  value : Word
  carry : Bool
  overflow : Bool
  deriving DecidableEq, Repr

/-- `AddWithCarry` of R194. -/
def addWithCarry (x y : Word) (c : Bool) : AluResult where
  value := BitVec.ofNat 32 (x.toNat + y.toNat + c.toNat)
  carry := decide (2 ^ 32 ≤ x.toNat + y.toNat + c.toNat)
  overflow := decide (x.toInt + y.toInt + (c.toNat : Int) < -(2 ^ 31) ∨
    2 ^ 31 - 1 < x.toInt + y.toInt + (c.toNat : Int))

/-- The flags of an arithmetic instruction (R194). -/
def setArithmetic (p : Word) (r : AluResult) : Word := setNZCV p r.value.msb (r.value == 0) r.carry r.overflow

/-- Whether an integer does not fit a signed word: `SignedDoesSat32` of 00_scope.md R13. -/
def doesSat (x : Int) : Bool := decide (x < -(2 ^ 31) ∨ 2 ^ 31 - 1 < x)

/-- `SignedSat32` of 00_scope.md R13. -/
def sat (x : Int) : Int := if x < -(2 ^ 31) then -(2 ^ 31) else if 2 ^ 31 - 1 < x then 2 ^ 31 - 1 else x

/-- `ConditionPassed` of 30_encoding.md R134. -/
def condPassed (c : Cond) (p : Word) : Bool :=
  match c with
  | .eq => psrZ p
  | .ne => !psrZ p
  | .cs => psrC p
  | .cc => !psrC p
  | .mi => psrN p
  | .pl => !psrN p
  | .vs => psrV p
  | .vc => !psrV p
  | .hi => psrC p && !psrZ p
  | .ls => !psrC p || psrZ p
  | .ge => psrN p == psrV p
  | .lt => psrN p != psrV p
  | .gt => !psrZ p && (psrN p == psrV p)
  | .le => psrZ p || (psrN p != psrV p)
  | .al => true

end Sys2Proof.Machine
end

