-- ==== Sys2Proof/Machine/Memory.lean ====
section
/-! DEFINITION. Memory as a list of address and byte pairs in one canonical form (spec/20_memory.md R80, R81).
An address that is not listed reads as 0x00 (DESIGN CHOICE, entry 12). -/

namespace Sys2Proof.Machine

/-- What a byte that nothing has written reads as (entry 12). -/
def unlistedByte : Byte := 0

/-- The byte at an address. -/
def memGet : List Host.Cell → Nat → Byte
  | [], _ => unlistedByte
  | (a, b) :: m, x => if a = x then b else memGet m x

/-- Write a byte, keeping the addresses rising and listing no byte equal to `unlistedByte`. -/
def memPut : List Host.Cell → Nat → Byte → List Host.Cell
  | [], x, v => if v = unlistedByte then [] else [(x, v)]
  | (a, b) :: m, x, v =>
    if x < a then (if v = unlistedByte then (a, b) :: m else (x, v) :: (a, b) :: m)
    else if x = a then (if v = unlistedByte then m else (x, v) :: m)
    else (a, b) :: memPut m x v

/-- The canonical form from address `lo` on: addresses below 2^32 strictly rising, no byte equal to what an
unlisted address reads as. -/
def memWfFrom : Nat → List Host.Cell → Bool
  | _, [] => true
  | lo, (a, b) :: m => decide (lo ≤ a) && decide (a < 2 ^ 32) && decide (b ≠ unlistedByte) && memWfFrom (a + 1) m

/-- The canonical form holds. -/
def Memory.wf (m : List Host.Cell) : Bool := memWfFrom 0 m

/-- The `n` bytes from an address on, lowest address first. -/
def memGetBytes (m : List Host.Cell) (a : Nat) : Nat → List Byte
  | 0 => []
  | n + 1 => memGet m a :: memGetBytes m (a + 1) n

/-- Write bytes from an address on. -/
def memPutBytes (m : List Host.Cell) (a : Nat) : List Byte → List Host.Cell
  | [] => m
  | b :: bs => memPutBytes (memPut m a b) (a + 1) bs

end Sys2Proof.Machine
end

