-- ==== Sys2Proof/Machine/Ops.lean ====
section
/-! DEFINITION. The named operations over registers, status registers, the PC and memory; taking an exception and
returning from one. -/

namespace Sys2Proof.Machine

/-! Modes (10_state.md R50). -/

/-- User mode. -/
def modeUser : ModeBits := 0b10000
/-- FIQ mode. -/
def modeFiq : ModeBits := 0b10001
/-- IRQ mode. -/
def modeIrq : ModeBits := 0b10010
/-- Supervisor mode. -/
def modeSvc : ModeBits := 0b10011
/-- Abort mode. -/
def modeAbt : ModeBits := 0b10111
/-- Undefined mode. -/
def modeUnd : ModeBits := 0b11011
/-- System mode. -/
def modeSys : ModeBits := 0b11111

/-- One of the seven modes of R50. -/
def legalMode (m : ModeBits) : Bool :=
  m == modeUser || m == modeFiq || m == modeIrq || m == modeSvc || m == modeAbt || m == modeUnd || m == modeSys

/-- The current mode. -/
def mode (s : State) : ModeBits := psrM s.cpsr

/-- Any mode but User (60_exceptions.md R590). -/
def privileged (s : State) : Bool := mode s != modeUser

/-- Thumb state. -/
def thumb (s : State) : Bool := psrT s.cpsr

/-! General registers (10_state.md R31, R34). -/

/-- Where register `n` (r0 to r14) of mode `m` lies in the register file: R34. -/
def bankIndex (m : ModeBits) (n : Reg) : Nat :=
  if m = modeFiq ∧ 8 ≤ n.toNat ∧ n.toNat ≤ 14 then n.toNat + 7
  else if n.toNat = 13 ∨ n.toNat = 14 then
    if m = modeIrq then n.toNat + 9
    else if m = modeSvc then n.toNat + 11
    else if m = modeAbt then n.toNat + 13
    else if m = modeUnd then n.toNat + 15
    else n.toNat
  else n.toNat

theorem bankIndex_lt (m : ModeBits) (n : Reg) : bankIndex m n < 30 := by
  unfold bankIndex
  have := n.isLt
  split
  · omega
  · split
    · repeat' split
      all_goals omega
    · omega

/-- Register `n` (r0 to r14) of mode `m`. -/
def regAt (s : State) (m : ModeBits) (n : Reg) : Word := s.regs[bankIndex m n]'(bankIndex_lt m n)

/-- Write register `n` (r0 to r14) of mode `m`. r15 is no register of the file: writing it here changes nothing. -/
def setRegAt (m : ModeBits) (n : Reg) (v : Word) (s : State) : State :=
  if n = 15 then s else { s with regs := s.regs.set (bankIndex m n) v (bankIndex_lt m n) }

/-- Register `n` of the current mode; r15 reads as `pc + ahead` (10_state.md R41). -/
def readReg (s : State) (ahead : Word) (n : Reg) : Word := if n = 15 then s.pc + ahead else regAt s (mode s) n

/-- `R[n]` of an ARM instruction: r15 reads as pc + 8. -/
def armReg (s : State) (n : Reg) : Word := readReg s 8 n

/-- `R[n]` of a Thumb instruction: r15 reads as pc + 4. -/
def thumbReg (s : State) (n : Reg) : Word := readReg s 4 n

/-- `R[n] <- v` for r0 to r14. -/
def setReg (n : Reg) (v : Word) (s : State) : State := setRegAt (mode s) n v s

/-- `R[RdHi] : R[RdLo] <- v` (41_arm_multiply_dsp.md R236). -/
def setRegPair (hi lo : Reg) (v : BitVec 64) (s : State) : State := setReg lo (fld 0 32 v) (setReg hi (fld 32 32 v) s)

/-- The registers a rule forbids to be r15 include it. -/
def anyPc (rs : List Reg) : Bool := rs.any (· == 15)

/-! Status registers (10_state.md R46 to R52). -/

/-- The SPSR of mode `m`; User and System have none (R52), nor has an illegal mode. -/
def spsrAt (s : State) (m : ModeBits) : Option Word :=
  if m = modeFiq then some s.spsrFiq
  else if m = modeIrq then some s.spsrIrq
  else if m = modeSvc then some s.spsrSvc
  else if m = modeAbt then some s.spsrAbt
  else if m = modeUnd then some s.spsrUnd
  else none

/-- The SPSR of the current mode. -/
def spsr (s : State) : Option Word := spsrAt s (mode s)

/-- Write the SPSR of mode `m`; a mode without one has nothing to write. -/
def setSpsrAt (m : ModeBits) (v : Word) (s : State) : State :=
  if m = modeFiq then { s with spsrFiq := v }
  else if m = modeIrq then { s with spsrIrq := v }
  else if m = modeSvc then { s with spsrSvc := v }
  else if m = modeAbt then { s with spsrAbt := v }
  else if m = modeUnd then { s with spsrUnd := v }
  else s

/-- Replace the CPSR. -/
def setCpsr (v : Word) (s : State) : State := { s with cpsr := v }

/-- Set the state bit T. -/
def setT (t : Bool) (s : State) : State := { s with cpsr := setBit s.cpsr 5 t }

/-! The program counter (10_state.md R40 to R43). -/

/-- `pc <- pc + n`, remembering a carry out of the top (R42, R43; entry 18). -/
def advance (n : Word) (s : State) : State :=
  { s with pc := s.pc + n, pcWrapped := decide (2 ^ 32 ≤ s.pc.toNat + n.toNat) }

/-- A write to the PC: the pipeline is refilled, so stale prefetches are gone (20_memory.md R116). -/
def branchTo (target : Word) (s : State) : State := { s with pc := target, stale := [], pcWrapped := false }

/-- An address with bit 0 cleared. -/
def evenAddr (a : Word) : Word := a &&& 0xFFFFFFFE

/-- A write to the PC in ARM state by data processing (40_arm_data_processing.md R196): bits 1:0 must be 00. -/
def jumpArm (target : Word) (s : State) : Result :=
  if fld 0 2 target = 0#2 then .next (branchTo target s) else .refused .misalignedPc

/-- `BX` and `BLX` to a register (42_arm_branch.md R272): bit 0 becomes T; bits 1:0 = 10 is UNPREDICTABLE. -/
def branchExchange (t : Word) (s : State) : Result :=
  if fld 0 2 t = 0b10#2 then .refused .misalignedPc else .next (branchTo (evenAddr t) (setT (flag 0 t) s))

/-- A load to the PC (43_arm_load_store.md R300): as `BX`. With `CFGDISLTBIT` HIGH it is refused: T would stay as it is
(10_state.md R44), but what else the pin disables is not said (92_eei_decisions.md D3; entry 3). -/
def loadPc (v : Word) (s : State) : Result :=
  if s.pins.disLTBit then .refused .disLTBitHigh else branchExchange v s

/-- Return from an exception (60_exceptions.md R585): CPSR <- SPSR and pc <- v in one step, aligned for the restored
state. -/
def exceptionReturn (v : Word) (s : State) : Result :=
  match spsr s with
  | none => .refused .noSpsr
  | some p =>
    if psrT p then .next (branchTo (evenAddr v) (setCpsr p s))
    else if fld 0 2 v = 0#2 then .next (branchTo v (setCpsr p s))
    else .refused .misalignedPc

/-! Exceptions (60_exceptions.md R555, R560, R561). -/

/-- The offset of an exception's vector (R555). -/
def Exception.offset : Exception → Word
  | .reset => 0x00
  | .undefined => 0x04
  | .swi => 0x08
  | .prefetchAbort => 0x0C
  | .dataAbort => 0x10
  | .irq => 0x18
  | .fiq => 0x1C

/-- The mode on entry (R555). -/
def Exception.entryMode : Exception → ModeBits
  | .reset => modeSvc
  | .undefined => modeUnd
  | .swi => modeSvc
  | .prefetchAbort => modeAbt
  | .dataAbort => modeAbt
  | .irq => modeIrq
  | .fiq => modeFiq

/-- `VB` (20_memory.md R111). -/
def vectorBase (s : State) : Word := if s.pins.hiVecs then 0xFFFF0000 else 0

/-- The CPSR on entry (R560): mode, T = 0, I = 1, and F = 1 for Reset and FIQ. -/
def entryCpsr (e : Exception) (old : Word) : Word :=
  let p := setBit (setBit (setM old e.entryMode) 5 false) 7 true
  if e = .reset ∨ e = .fiq then setBit p 6 true else p

/-- `raise E` (R560): r14 and the SPSR of the entered mode are written, the CPSR is changed, the PC is at the vector.
Entry refills the pipeline. It ends the hazard after a User-bank LDM or STM: the rules speak of the instruction straight
after one, and the first instruction of the handler is not held to be that (DESIGN CHOICE, entry 23). -/
def takeException (e : Exception) (link : Word) (s : State) : State :=
  let saved := setSpsrAt e.entryMode s.cpsr (setRegAt e.entryMode 14 link s)
  { branchTo (vectorBase s + e.offset) (setCpsr (entryCpsr e s.cpsr) saved) with
    userBankHazard := false, vectorEntered := some e }

/-- The undefined instruction trap (R566, R561): link a + 4 in ARM state, a + 2 in Thumb state; `n` is that length. -/
def undefinedTrap (n : Word) (s : State) : State := takeException .undefined (s.pc + n) s

/-- SWI (R563). -/
def swiTrap (n : Word) (s : State) : State := takeException .swi (s.pc + n) s

/-- Prefetch Abort (R567): link a + 4 in both states. -/
def prefetchAbort (s : State) : State := takeException .prefetchAbort (s.pc + 4) s

/-- Data Abort (R570): link a + 8 in both states. -/
def dataAbort (s : State) : State := takeException .dataAbort (s.pc + 8) s

/-- IRQ (R580). -/
def takeIrq (s : State) : State := takeException .irq (s.pc + 4) s

/-- FIQ (R579). -/
def takeFiq (s : State) : State := takeException .fiq (s.pc + 4) s

/-- Set DbgAbt (60_exceptions.md R604). -/
def setDbgAbt (b : Bool) (s : State) : State := { s with dbg := { s.dbg with dbgAbt := b } }

/-- What `nRESET` during the run leaves (R562): the registers, SPSRs and CPSR[31:8] become free values (entry 17); memory,
the pins, the debug unit and the CHAINOUT latch stay (70_reset_and_hazards.md R630, R634). What it does to attached
coprocessors is outside the core and not stated (R634): their ports stay as they were (DESIGN CHOICE, entry 17). -/
def resetMachine (s : State) : State :=
  { s with
    regs := Vector.ofFn fun i => Config.resetRegister s.tick i.val
    pc := vectorBase s
    cpsr := push (push 0 (Config.resetCpsr s.tick)) 0xD3#8
    spsrFiq := Config.resetSpsr s.tick 0
    spsrIrq := Config.resetSpsr s.tick 1
    spsrSvc := Config.resetSpsr s.tick 2
    spsrAbt := Config.resetSpsr s.tick 3
    spsrUnd := Config.resetSpsr s.tick 4
    stale := []
    pcWrapped := false
    userBankHazard := false
    vectorEntered := some .reset
    tick := s.tick + 1 }

/-! Conditional execution (30_encoding.md R134). -/

/-- An ARM instruction whose condition fails only advances the PC; the condition comes first (entry 25). -/
def whenPassed (c : Cond) (s : State) (r : Result) : Result :=
  if condPassed c s.cpsr then r else .next (advance 4 s)

/-! Data accesses (20_memory.md R93 to R104). -/

/-- The bytes of an access. -/
def Size.bytes : Size → Nat
  | .byte => 1
  | .half => 2
  | .word => 4

/-- The address the memory system uses: the insignificant low bits are ignored (R93). -/
def Size.align : Size → Word → Word
  | .byte, a => a
  | .half, a => a &&& 0xFFFFFFFE
  | .word, a => a &&& 0xFFFFFFFC

/-- A data access of the current instruction; `forced` shows User privilege and mode (R103, R104). Where the rule of the
instruction passes a word address AND 0xFFFFFFFC, the abort rules and the debug logic see it with its low bits (R95, R99, D8;
DESIGN CHOICE, entry 56). -/
def dataAccess (s : State) (forced : Bool) (size : Size) (write locked : Bool) (addr : Word) : Access where
  fetch := false
  addr := addr
  size := size
  write := write
  priv := !forced && privileged s
  mode := if forced then modeUser else mode s
  locked := locked

/-- The bytes of a value, lowest address first (R86). -/
def laneBytes (big : Bool) (size : Size) (v : Word) : List Byte :=
  let little : List Byte := match size with
    | .byte => [fld 0 8 v]
    | .half => [fld 0 8 v, fld 8 8 v]
    | .word => [fld 0 8 v, fld 8 8 v, fld 16 8 v, fld 24 8 v]
  if big then little.reverse else little

/-- `Word(a)`, `Half(a)` or `Byte(a)` of R86, zero-extended, with the low address bits ignored. -/
def readMem (s : State) (size : Size) (addr : Word) : Word :=
  BitVec.ofNat 32 (assemble s.pins.bigEndian (memGetBytes s.mem (size.align addr).toNat size.bytes))

/-- The bytes an instruction ahead of the current one has or may have fetched: from pc + i to the end of the one at
pc + 4i (20_memory.md R117). -/
def inFetchWindow (s : State) (a : Word) : Bool :=
  let i := if thumb s then 2 else 4
  decide (i ≤ (a - s.pc).toNat) && decide ((a - s.pc).toNat < 5 * i)

/-- The addresses from `a` on, `n` of them, that two memories hold differently and that lie in the fetch window. -/
def changedInWindow (s : State) (old new : List Host.Cell) (a : Word) (n : Nat) : List Word :=
  ((List.range n).map fun k => a + BitVec.ofNat 32 k).filter fun x =>
    inFetchWindow s x && (memGet old x.toNat != memGet new x.toNat)

/-- Store a value (R96): only the addressed bytes change. A fetched instruction it changes becomes stale when the
fetch sees this memory (R116, R117; entry 19). -/
def writeMem (size : Size) (addr v : Word) (s : State) : State :=
  let a := size.align addr
  let new := memPutBytes s.mem a.toNat (laneBytes s.pins.bigEndian size v)
  { s with
    mem := new
    stale := if s.pins.unifiedMemory then s.stale ++ changedInWindow s s.mem new a size.bytes else s.stale }

/-- The word on the data bus of an access (R97, R98): a read drives the whole word, a write its value on every lane. -/
def busWord (s : State) (a : Access) (v : Word) : Word :=
  if a.write then
    match a.size with
    | .byte => push (push (push (push 0 (fld 0 8 v)) (fld 0 8 v)) (fld 0 8 v)) (fld 0 8 v)
    | .half => push (push 0 (fld 0 16 v)) (fld 0 16 v)
    | .word => v
  else readMem s .word a.addr

/-- How one access ends. -/
inductive AccessAnswer where
  | ok
  /-- A write that the memory system ignores: it ends normally. -/
  | ignored
  /-- `DABORT` or `IABORT`. -/
  | abort
  /-- A monitor-mode breakpoint or watchpoint. -/
  | debugAbort
  /-- A halt-mode breakpoint or watchpoint. -/
  | debugState
  | unsupported
  deriving DecidableEq, Repr

/-- How a data access ends. A halt-mode watchpoint comes before an abort (60_exceptions.md R609); an abort comes
before a monitor-mode one (R604). -/
def dataAnswer (s : State) (a : Access) (v : Word) : AccessAnswer :=
  let d := debugMatch s a (busWord s a v)
  if d = .hit ∧ s.dbg.monitorMode = false then .debugState
  else if platformAborts s a then .abort
  else match d with
    | .none => if platformIgnores s a then .ignored else .ok
    | .hit => .debugAbort
    | .unsupported => .unsupported

/-- What unit 1's CHAINOUT latch makes of an access that is answered (10_state.md R71; entry 46). -/
def latched (a : Access) (v : Word) (s : State) : State :=
  { s with chainOut := latchAfter s a (s.dbg.wp1.dataMatches (busWord s a v)) }

/-- The same for an access that aborts: a read brings no word that the spec names, so its comparison is a free value. -/
def latchedAbort (a : Access) (v : Word) (s : State) : State :=
  if a.write then latched a v s else { s with chainOut := latchAfter s a (Config.chainOut s.tick 1) }

/-- A write takes place, unless the memory system ignores it. -/
def perform (a : Access) (v : Word) (s : State) : State :=
  if platformIgnores s a then s else writeMem a.size a.addr v s

/-- Go on with `k` if the access is answered. On an abort the base and the destinations are as in `s` (60_exceptions.md
R568, R569). On a monitor-mode watchpoint a Data Abort is taken and DbgAbt set; whether the access completed, as
`complete` says, is a free value (R603; entry 31); the register of a load that completed keeps the loaded value, even where
it is the base (DESIGN CHOICE, entry 52). -/
def guarded (s : State) (a : Access) (v : Word) (complete : State → State) (k : State → Result) : Result :=
  let t := latched a v s
  match dataAnswer s a v with
  | .ok => k t
  | .ignored => k t
  | .abort => .next (dataAbort (latchedAbort a v s))
  | .debugAbort => .next (setDbgAbt true (dataAbort (if Config.watchCompletes s.tick then complete t else t)))
  | .debugState => .fault .debugState
  | .unsupported => .refused .debugUnsupported

/-! Multiple transfers (44_arm_load_store_multiple.md R342, R344). -/

/-- How a sequence of transfers ends: all made, or stopped at one. -/
inductive Transfer where
  | done (s : State)
  | stopped (r : Result)

/-- Load the listed registers from ascending words (R342), each put in place by `put`. The platform and the debug logic see
each address as `start + 4k`, low bits included, for LDC too (DESIGN CHOICE, entry 56). On an abort (R344) what was
loaded stays, the base (restored by `restore`) is as before, and Data Abort is taken. -/
def loadList (put : Reg → Word → State → State) (restore : State → State) :
    List Reg → Word → State → Transfer
  | [], _, s => .done s
  | r :: rs, addr, s =>
    let v := readMem s .word addr
    let a := dataAccess s false .word false false addr
    let t := latched a v s
    match dataAnswer s a v with
    | .ok => loadList put restore rs (addr + 4) (put r v t)
    | .ignored => loadList put restore rs (addr + 4) (put r v t)
    | .abort => .stopped (.next (dataAbort (restore (latchedAbort a v s))))
    | .debugAbort =>
      .stopped (.next (setDbgAbt true (dataAbort (restore (if Config.watchCompletes s.tick then put r v t else t)))))
    | .debugState => .stopped (.fault .debugState)
    | .unsupported => .stopped (.refused .debugUnsupported)

/-- Store words at ascending word addresses (R342), shown with their low bits as in `loadList`, for STC too (DESIGN CHOICE,
entry 56). On an abort (R344) the words before it are written. -/
def storeList : List Word → Word → State → Transfer
  | [], _, s => .done s
  | v :: vs, addr, s =>
    let a := dataAccess s false .word true false addr
    let t := latched a v s
    match dataAnswer s a v with
    | .ok => storeList vs (addr + 4) (perform a v t)
    | .ignored => storeList vs (addr + 4) (perform a v t)
    | .abort => .stopped (.next (dataAbort (latchedAbort a v s)))
    | .debugAbort =>
      .stopped (.next (setDbgAbt true (dataAbort (if Config.watchCompletes s.tick then perform a v t else t))))
    | .debugState => .stopped (.fault .debugState)
    | .unsupported => .stopped (.refused .debugUnsupported)

/-- Go on once every transfer is made. -/
def Transfer.thenDo (t : Transfer) (k : State → Result) : Result :=
  match t with
  | .done s => k s
  | .stopped r => r

end Sys2Proof.Machine
end

