-- ==== Sys2Proof/Machine/Operands.lean ====
section
/-! DEFINITION. The operand forms: the shifter operand and the addressing modes (spec/40_arm_data_processing.md R191
to R193; 43_arm_load_store.md R291 to R293; 44_arm_load_store_multiple.md R341; 46_arm_coprocessor.md R407). -/

namespace Sys2Proof.Machine

/-- A shifted value and the carry out of the shifter. -/
structure Shifted where
  value : Word
  carry : Bool
  deriving DecidableEq, Repr

/-- The immediate form (R191, R151). -/
def rotatedImm (c : Bool) (rot : BitVec 4) (imm8 : BitVec 8) : Shifted :=
  let v := (zext imm8).rotateRight (2 * rot.toNat)
  { value := v, carry := if rot = 0 then c else v.msb }

/-- The immediate shifts (R192, R152): an amount of 0 means LSL #0, LSR #32, ASR #32 or RRX. -/
def shiftByImm (c : Bool) (kind : ShiftKind) (m : Word) (amount : BitVec 5) : Shifted :=
  let n := amount.toNat
  match kind with
  | .lsl => if n = 0 then ⟨m, c⟩ else ⟨m <<< n, m.getLsbD (32 - n)⟩
  | .lsr => if n = 0 then ⟨0, m.msb⟩ else ⟨m >>> n, m.getLsbD (n - 1)⟩
  | .asr => if n = 0 then ⟨m.sshiftRight 31, m.msb⟩ else ⟨m.sshiftRight n, m.getLsbD (n - 1)⟩
  | .ror => if n = 0 then ⟨setBit (m >>> 1) 31 c, m.getLsbD 0⟩ else ⟨m.rotateRight n, m.getLsbD (n - 1)⟩

/-- The register shifts (R193), by the low byte of the shift register. -/
def shiftByReg (c : Bool) (kind : ShiftKind) (m : Word) (amount : Byte) : Shifted :=
  let n := amount.toNat
  if n = 0 then ⟨m, c⟩
  else match kind with
    | .lsl => if n < 32 then ⟨m <<< n, m.getLsbD (32 - n)⟩ else if n = 32 then ⟨0, m.getLsbD 0⟩ else ⟨0, false⟩
    | .lsr => if n < 32 then ⟨m >>> n, m.getLsbD (n - 1)⟩ else if n = 32 then ⟨0, m.msb⟩ else ⟨0, false⟩
    | .asr => if n < 32 then ⟨m.sshiftRight n, m.getLsbD (n - 1)⟩ else ⟨m.sshiftRight 31, m.msb⟩
    | .ror =>
      if n % 32 = 0 then ⟨m, m.msb⟩ else ⟨m.rotateRight (n % 32), m.getLsbD (n % 32 - 1)⟩

/-- `shifter_operand` and `shifter_carry_out` of `<Oprnd2>`. -/
def operand2 (s : State) : Operand2 → Shifted
  | .imm rot imm8 => rotatedImm (psrC s.cpsr) rot imm8
  | .shiftImm amount kind rm => shiftByImm (psrC s.cpsr) kind (armReg s rm) amount
  | .shiftReg rs kind rm => shiftByReg (psrC s.cpsr) kind (armReg s rm) (fld 0 8 (armReg s rs))

/-- R195: with a register shift no register may be r15; `rs` are the instruction's other registers. -/
def operand2Allowed (rs : List Reg) : Operand2 → Bool
  | .shiftReg rs' _ rm => !anyPc (rs' :: rm :: rs)
  | _ => true

/-- The offset of addressing mode 2 (R291). -/
def offset2 (s : State) : Offset2 → Word
  | .imm offset12 => zext offset12
  | .reg amount kind rm => (shiftByImm (psrC s.cpsr) kind (armReg s rm) amount).value

/-- The register of an offset of addressing mode 2, if it has one. -/
def offset2Reg : Offset2 → Option Reg
  | .imm _ => none
  | .reg _ _ rm => some rm

/-- The offset of addressing mode 3 (R293). -/
def offset3 (s : State) : Offset3 → Word
  | .imm imm8 => zext imm8
  | .reg _ rm => armReg s rm

/-- The register of an offset of addressing mode 3, if it has one. -/
def offset3Reg : Offset3 → Option Reg
  | .imm _ => none
  | .reg _ rm => some rm

/-- Bits 11:8 of a register offset should be zero (R293). -/
def offset3Sbz : Offset3 → Bool
  | .imm _ => true
  | .reg sbz _ => sbz == 0

/-- `base ± offset` (R292). -/
def offsetAddr (base offset : Word) (u : Bool) : Word := if u then base + offset else base - offset

/-- Whether an index mode writes the base (R292). -/
def Index.writesBase : Index → Bool
  | .offset => false
  | _ => true

/-- The access address (R292): the base when post-indexed. -/
def accessAddr (idx : Index) (base offset : Word) (u : Bool) : Word :=
  match idx with
  | .offset => offsetAddr base offset u
  | .preIndexed => offsetAddr base offset u
  | .postIndexed => base
  | .postWriteback => base

/-- The base write-back (R292). -/
def writeBack (idx : Index) (rn : Reg) (base offset : Word) (u : Bool) (s : State) : State :=
  if Index.writesBase idx then setReg rn (offsetAddr base offset u) s else s

/-- Start address of addressing mode 4 for `n` words (R341). -/
def blockStart (m : BlockMode) (base : Word) (n : Nat) : Word :=
  match m with
  | .ia => base
  | .ib => base + 4
  | .da => base - BitVec.ofNat 32 (4 * n) + 4
  | .db => base - BitVec.ofNat 32 (4 * n)

/-- Written-back base of addressing mode 4 for `n` words (R341). -/
def blockEnd (m : BlockMode) (base : Word) (n : Nat) : Word :=
  match m with
  | .ia => base + BitVec.ofNat 32 (4 * n)
  | .ib => base + BitVec.ofNat 32 (4 * n)
  | .da => base - BitVec.ofNat 32 (4 * n)
  | .db => base - BitVec.ofNat 32 (4 * n)

/-- The offset of addressing mode 5 (R407). -/
def offset5 (offset8 : BitVec 8) : Word := zext offset8 <<< 2

/-- The start address of addressing mode 5 (R407): the base unless P is set. -/
def start5 (p u : Bool) (base : Word) (offset8 : BitVec 8) : Word :=
  if p then offsetAddr base (offset5 offset8) u else base

/-- The word a store of r15 stores: the instruction's address plus `STORE_PC_OFFSET` (R320, R352; entry 7). -/
def storedPc (s : State) : Word := s.pc + (if Config.storePcOffsetIs12 then 12 else 8)

/-- The register a store stores. -/
def storeReg (s : State) (n : Reg) : Word := if n = 15 then storedPc s else armReg s n

/-- A loaded word rotated so that the addressed byte is lowest (20_memory.md R99). -/
def rotateLoaded (v addr : Word) : Word := v.rotateRight (8 * (fld 0 2 addr).toNat)

/-- `half(v, top)` as a signed integer (41_arm_multiply_dsp.md R244). -/
def halfInt (v : Word) (top : Bool) : Int := if top then (fld 16 16 v).toInt else (fld 0 16 v).toInt

end Sys2Proof.Machine
end

