-- ==== Sys2Proof/Machine/BlockTransfer.lean ====
section
/-! DEFINITION. The ARM load and store multiple (spec/44_arm_load_store_multiple.md). -/

namespace Sys2Proof.Machine

/-- What every form refuses (R340, R343): r15 as the base. -/
def blockAllowed (rn : Reg) : Bool := rn != 15

/-- The words a store multiple stores, from registers of mode `m` (R350 to R352). With write-back, a base that is
listed and not the lowest stores a free value (R343; entry 21). -/
def storedWords (s : State) (m : ModeBits) (w : Bool) (rn : Reg) (regs : List Reg) : List Word :=
  regs.map fun r =>
    if r = 15 then storedPc s
    else if w && r == rn && regs.head? != some rn then Config.storedBase s.tick
    else regAt s m r

/-- The end of a load multiple of the current mode's registers: every transfer, then the base write-back. A listed
r15 is the last transfer (R342) and is not written by it. -/
def blockLoad (mode4 : BlockMode) (w : Bool) (rn : Reg) (regs : List Reg) (s : State) (k : Word → State → Result) :
    Result :=
  let base := armReg s rn
  let n := regs.length
  let start := blockStart mode4 base n
  (loadList setReg (setReg rn base) regs start s).thenDo fun s' =>
    k (readMem s .word (start + BitVec.ofNat 32 (4 * (n - 1))))
      (if w then setReg rn (blockEnd mode4 base n) s' else s')

/-- LDM (1) (R345). -/
def execLdm1 (c : Cond) (mode4 : BlockMode) (w : Bool) (rn : Reg) (list : BitVec 16) (s : State) : Result :=
  whenPassed c s <|
    if list = 0 then .refused .emptyRegisterList
    else if !blockAllowed rn || (w && list.getLsbD rn.toNat) then .refused .blockTransferForm
    else blockLoad mode4 w rn (listedRegs list) s fun last s' =>
      if list.getLsbD 15 then loadPc last s' else .next (advance 4 s')

/-- LDM (2) (R346): the User-mode registers. In User and System mode it is refused (entry 42). -/
def execLdm2 (c : Cond) (mode4 : BlockMode) (w : Bool) (rn : Reg) (list : BitVec 15) (s : State) : Result :=
  let base := armReg s rn
  let regs := listedRegs list
  whenPassed c s <|
    if list = 0 then .refused .emptyRegisterList
    else if !blockAllowed rn || w || mode s == modeUser || mode s == modeSys then .refused .blockTransferForm
    else (loadList (setRegAt modeUser) (setReg rn base) regs (blockStart mode4 base regs.length) s).thenDo fun s' =>
      .next { advance 4 s' with userBankHazard := true }

/-- LDM (3) (R347): with r15, and an exception return. `list` is r0 to r14. -/
def execLdm3 (c : Cond) (mode4 : BlockMode) (w : Bool) (rn : Reg) (list : BitVec 15) (s : State) : Result :=
  whenPassed c s <|
    if !blockAllowed rn || (w && list.getLsbD rn.toNat) then .refused .blockTransferForm
    else if spsr s = none then .refused .noSpsr
    else blockLoad mode4 w rn (listedRegs list ++ [15]) s exceptionReturn

/-- STM (1) (R350). -/
def execStm1 (c : Cond) (mode4 : BlockMode) (w : Bool) (rn : Reg) (list : BitVec 16) (s : State) : Result :=
  let base := armReg s rn
  let regs := listedRegs list
  whenPassed c s <|
    if list = 0 then .refused .emptyRegisterList
    else if !blockAllowed rn then .refused .blockTransferForm
    else (storeList (storedWords s (mode s) w rn regs) (blockStart mode4 base regs.length) s).thenDo fun s' =>
      .next (advance 4 (if w then setReg rn (blockEnd mode4 base regs.length) s' else s'))

/-- STM (2) (R351): the User-mode registers. In User and System mode it is refused (entry 42). -/
def execStm2 (c : Cond) (mode4 : BlockMode) (w : Bool) (rn : Reg) (list : BitVec 16) (s : State) : Result :=
  let base := armReg s rn
  let regs := listedRegs list
  whenPassed c s <|
    if list = 0 then .refused .emptyRegisterList
    else if !blockAllowed rn || w || mode s == modeUser || mode s == modeSys then .refused .blockTransferForm
    else (storeList (storedWords s modeUser false rn regs) (blockStart mode4 base regs.length) s).thenDo fun s' =>
      .next { advance 4 s' with userBankHazard := true }

end Sys2Proof.Machine
end

