-- ==== Sys2Proof/Machine/Branch.lean ====
section
/-! DEFINITION. The ARM branches (spec/42_arm_branch.md). -/

namespace Sys2Proof.Machine

/-- The target of an ARM branch (R270): pc + 8 plus the offset in words. -/
def armBranchTarget (s : State) (imm24 : BitVec 24) : Word := s.pc + 8 + (sext imm24 <<< 2)

/-- B (R270). -/
def execB (c : Cond) (imm24 : BitVec 24) (s : State) : Result :=
  whenPassed c s (.next (branchTo (armBranchTarget s imm24) s))

/-- BL (R271). -/
def execBl (c : Cond) (imm24 : BitVec 24) (s : State) : Result :=
  whenPassed c s (.next (branchTo (armBranchTarget s imm24) (setReg 14 (s.pc + 4) s)))

/-- BX (R272). -/
def execBx (c : Cond) (sbo : BitVec 12) (rm : Reg) (s : State) : Result :=
  whenPassed c s <|
    if sbo != 0xFFF then .refused .sbzSbo else branchExchange (armReg s rm) s

/-- BLX to a label (R273): no condition; H is bit 1 of the target. -/
def execBlxImm (h : Bool) (imm24 : BitVec 24) (s : State) : Result :=
  .next (branchTo (armBranchTarget s imm24 + (if h then 2 else 0)) (setT true (setReg 14 (s.pc + 4) s)))

/-- BLX to a register (R274): the register is read before r14 is written. -/
def execBlxReg (c : Cond) (sbo : BitVec 12) (rm : Reg) (s : State) : Result :=
  whenPassed c s <|
    if sbo != 0xFFF then .refused .sbzSbo
    else if anyPc [rm] then .refused .r15Operand
    else branchExchange (armReg s rm) (setReg 14 (s.pc + 4) s)

end Sys2Proof.Machine
end

