-- ==== Sys2Proof/Machine/Coprocessor.lean ====
section
/-! DEFINITION. The coprocessor instructions, the coprocessor interface and coprocessor 14
(spec/46_arm_coprocessor.md). -/

namespace Sys2Proof.Machine

/-- The answer of coprocessor `cp` to the next instruction for it: absent where none is attached (R395, R397); `rest`
once its list of answers is used up, so that it can wait for ever (R394, U23). -/
def copAnswer (s : State) (cp : BitVec 4) : CopAnswer :=
  match s.cops.find? (fun p => p.num == cp) with
  | none => .absent
  | some p => p.answers.headD p.rest

/-- One port takes its answer off the list and records what it received. -/
def CopPort.advance (p : CopPort) (received : List CopMessage) : CopPort :=
  { p with answers := p.answers.tail, received := p.received ++ received }

/-- The first port of a number advances. -/
def advancePort (cp : BitVec 4) (received : List CopMessage) : List CopPort → List CopPort
  | [] => []
  | p :: ps => if p.num = cp then p.advance received :: ps else p :: advancePort cp received ps

/-- Coprocessor `cp` has answered, and received these messages. -/
def copDone (cp : BitVec 4) (received : List CopMessage) (s : State) : State :=
  { s with cops := advancePort cp received s.cops }

/-- A coprocessor instruction for a coprocessor other than 14 (R391): absent takes the undefined instruction trap; a wait
leaves the PC on the instruction, so that an interrupt can come between (R394; entry 39); accepted goes on with `k`. -/
def copOp (cp : BitVec 4) (s : State) (k : Word → Word → List Word → Result) : Result :=
  match copAnswer s cp with
  | .absent => .next (undefinedTrap 4 (copDone cp [] s))
  | .wait => .next (copDone cp [] s)
  | .accept first second more => k first second more

/-- What a coprocessor receives: the instruction word, the privilege it sees (R396), the words sent. -/
def message (s : State) (i : Instr) (sent : List Word) : CopMessage where
  instruction := encodeArm i
  priv := privileged s
  sent := sent

/-- CDP (R400): coprocessor 14 gives it no meaning (R420). -/
def cdpOp (cp : BitVec 4) (i : Instr) (s : State) : Result :=
  if cp = 14 then .refused .cp14Encoding
  else copOp cp s fun _ _ _ => .next (advance 4 (copDone cp [message s i []] s))

/-- The word `MCR` sends (R401): for r15 a free value (entry 22). -/
def sentWord (s : State) (rd : Reg) : Word := if rd = 15 then Config.sentPc s.tick else armReg s rd

/-- Writes to coprocessor 14 (R418 to R420): c1 is the comms data write register, and a write while W = 1 leaves a free
value in it (entry 20); c2 is DbgAbt; c0 is read-only. -/
def mcr14 (op1 : BitVec 3) (crn : BitVec 4) (rd : Reg) (op2 : BitVec 3) (crm : BitVec 4) (s : State) : Result :=
  if op1 ≠ 0 ∨ op2 ≠ 0 ∨ crm ≠ 0 then .refused .cp14Encoding
  else if crn = 0 then .refused .commsControlWrite
  else if crn = 1 then
    .next (advance 4 { s with dbg := { s.dbg with
      commsWrite := if s.dbg.commsW then Config.commsOverwritten s.tick else sentWord s rd
      commsW := true } })
  else if crn = 2 then .next (advance 4 (setDbgAbt (flag 0 (sentWord s rd)) s))
  else .refused .cp14Encoding

/-- MCR (R401). -/
def mcrOp (op1 : BitVec 3) (crn : BitVec 4) (rd : Reg) (cp : BitVec 4) (op2 : BitVec 3) (crm : BitVec 4) (i : Instr)
    (s : State) : Result :=
  if cp = 14 then mcr14 op1 crn rd op2 crm s
  else copOp cp s fun _ _ _ => .next (advance 4 (copDone cp [message s i [sentWord s rd]] s))

/-- The end of `MRC` (R402): `Rd`, or for r15 the flags N, Z, C, V from bits 31 to 28. -/
def finishMrc (rd : Reg) (v : Word) (s : State) : State :=
  if rd = 15 then setCpsr (setNZCV s.cpsr (flag 31 v) (flag 30 v) (flag 29 v) (flag 28 v)) s else setReg rd v s

/-- Reads of coprocessor 14 (R416, R417, R419, R420): reading the comms data clears R, and while R = 0 gives a free value
(entry 20). -/
def mrc14 (op1 : BitVec 3) (crn : BitVec 4) (rd : Reg) (op2 : BitVec 3) (crm : BitVec 4) (s : State) : Result :=
  if op1 ≠ 0 ∨ op2 ≠ 0 ∨ crm ≠ 0 then .refused .cp14Encoding
  else if crn = 0 then .next (advance 4 (finishMrc rd (commsControl s) s))
  else if crn = 1 then
    .next (advance 4 (finishMrc rd (if s.dbg.commsR then s.dbg.commsRead else Config.commsUnread s.tick)
      { s with dbg := { s.dbg with commsR := false } }))
  else if crn = 2 then .next (advance 4 (finishMrc rd (zext (bit s.dbg.dbgAbt)) s))
  else .refused .cp14Encoding

/-- MRC (R402). -/
def mrcOp (op1 : BitVec 3) (crn : BitVec 4) (rd : Reg) (cp : BitVec 4) (op2 : BitVec 3) (crm : BitVec 4) (i : Instr)
    (s : State) : Result :=
  if cp = 14 then mrc14 op1 crn rd op2 crm s
  else copOp cp s fun first _ _ => .next (advance 4 (finishMrc rd first (copDone cp [message s i []] s)))

/-- The words `LDC` reads: as many as the coprocessor said, from ascending addresses, up to the first abort (R405). -/
def ldcWords : State → Nat → Word → List Word
  | _, 0, _ => []
  | s, n + 1, addr =>
    let v := readMem s .word addr
    let a := dataAccess s false .word false false addr
    match dataAnswer s a v with
    | .ok => v :: ldcWords (latched a v s) n (addr + 4)
    | .ignored => v :: ldcWords (latched a v s) n (addr + 4)
    | .debugAbort => if Config.watchCompletes s.tick then [v] else []
    | .abort => []
    | .debugState => []
    | .unsupported => []

/-- The base write-back of addressing mode 5 (R407). -/
def base5 (u w : Bool) (rn : Reg) (offset8 : BitVec 8) (s s' : State) : State :=
  if w then setReg rn (offsetAddr (armReg s rn) (offset5 offset8) u) s' else s'

/-- LDC (R405): the transfers are those of a load multiple that writes no register. A coprocessor that is absent traps
whatever the registers are: the forms of U24 are refused only once it accepts (entry 51). -/
def ldcOp (p u w : Bool) (rn : Reg) (cp : BitVec 4) (offset8 : BitVec 8) (i : Instr) (s : State) : Result :=
  if cp = 14 then .refused .cp14Encoding
  else if !p && !u && !w then .refused .unallocated
  else copOp cp s fun _ _ more =>
    let start := start5 p u (armReg s rn) offset8
    let n := more.length + 1
    let s' := copDone cp [message s i (ldcWords s n start)] s
    if rn = 15 ∧ w = true then .refused .r15Operand
    else (loadList (fun _ _ t => t) id (List.replicate n 0) start s').thenDo fun t =>
      .next (advance 4 (base5 u w rn offset8 s t))

/-- STC (R406): the words come from the coprocessor. The forms of U24 as for LDC (entry 51). -/
def stcOp (p u w : Bool) (rn : Reg) (cp : BitVec 4) (offset8 : BitVec 8) (i : Instr) (s : State) : Result :=
  if cp = 14 then .refused .cp14Encoding
  else if !p && !u && !w then .refused .unallocated
  else copOp cp s fun first _ more =>
    if rn = 15 ∧ w = true then .refused .r15Operand
    else (storeList (first :: more) (start5 p u (armReg s rn) offset8) (copDone cp [message s i []] s)).thenDo fun t =>
      .next (advance 4 (base5 u w rn offset8 s t))

/-- CDP (R400). -/
def execCdp (c : Cond) (op1 crn crd cp : BitVec 4) (op2 : BitVec 3) (crm : BitVec 4) (s : State) : Result :=
  whenPassed c s (cdpOp cp (.cdp c op1 crn crd cp op2 crm) s)

/-- CDP2 (R408): as CDP, always executed. -/
def execCdp2 (op1 crn crd cp : BitVec 4) (op2 : BitVec 3) (crm : BitVec 4) (s : State) : Result :=
  cdpOp cp (.cdp2 op1 crn crd cp op2 crm) s

/-- MCR (R401). -/
def execMcr (c : Cond) (op1 : BitVec 3) (crn : BitVec 4) (rd : Reg) (cp : BitVec 4) (op2 : BitVec 3)
    (crm : BitVec 4) (s : State) : Result :=
  whenPassed c s (mcrOp op1 crn rd cp op2 crm (.mcr c op1 crn rd cp op2 crm) s)

/-- MCR2 (R408): as MCR, always executed; coprocessor 14 has no such form (R420, U22). -/
def execMcr2 (op1 : BitVec 3) (crn : BitVec 4) (rd : Reg) (cp : BitVec 4) (op2 : BitVec 3)
    (crm : BitVec 4) (s : State) : Result :=
  if cp = 14 then .refused .cp14Encoding else mcrOp op1 crn rd cp op2 crm (.mcr2 op1 crn rd cp op2 crm) s

/-- MRC (R402). -/
def execMrc (c : Cond) (op1 : BitVec 3) (crn : BitVec 4) (rd : Reg) (cp : BitVec 4) (op2 : BitVec 3)
    (crm : BitVec 4) (s : State) : Result :=
  whenPassed c s (mrcOp op1 crn rd cp op2 crm (.mrc c op1 crn rd cp op2 crm) s)

/-- MRC2 (R408): as MRC, always executed; coprocessor 14 has no such form (R420, U22). -/
def execMrc2 (op1 : BitVec 3) (crn : BitVec 4) (rd : Reg) (cp : BitVec 4) (op2 : BitVec 3)
    (crm : BitVec 4) (s : State) : Result :=
  if cp = 14 then .refused .cp14Encoding else mrcOp op1 crn rd cp op2 crm (.mrc2 op1 crn rd cp op2 crm) s

/-- LDC (R405). -/
def execLdc (c : Cond) (p u n w : Bool) (rn : Reg) (crd cp : BitVec 4) (offset8 : BitVec 8) (s : State) : Result :=
  whenPassed c s (ldcOp p u w rn cp offset8 (.ldc c p u n w rn crd cp offset8) s)

/-- LDC2 (R408): as LDC, always executed. -/
def execLdc2 (p u n w : Bool) (rn : Reg) (crd cp : BitVec 4) (offset8 : BitVec 8) (s : State) : Result :=
  ldcOp p u w rn cp offset8 (.ldc2 p u n w rn crd cp offset8) s

/-- STC (R406). -/
def execStc (c : Cond) (p u n w : Bool) (rn : Reg) (crd cp : BitVec 4) (offset8 : BitVec 8) (s : State) : Result :=
  whenPassed c s (stcOp p u w rn cp offset8 (.stc c p u n w rn crd cp offset8) s)

/-- STC2 (R408): as STC, always executed. -/
def execStc2 (p u n w : Bool) (rn : Reg) (crd cp : BitVec 4) (offset8 : BitVec 8) (s : State) : Result :=
  stcOp p u w rn cp offset8 (.stc2 p u n w rn crd cp offset8) s

/-- MCRR (R403): `Rd`, then `Rn`. An absent coprocessor traps before the registers matter (entry 51). -/
def execMcrr (c : Cond) (rn rd : Reg) (cp opc crm : BitVec 4) (s : State) : Result :=
  whenPassed c s <|
    if cp = 14 then .refused .cp14Encoding
    else copOp cp s fun _ _ _ =>
      if anyPc [rd, rn] then .refused .r15Operand
      else .next (advance 4 (copDone cp [message s (.mcrr c rn rd cp opc crm) [armReg s rd, armReg s rn]] s))

/-- MRRC (R404): the first word to `Rd`, the second to `Rn`. An absent coprocessor traps before the registers matter
(entry 51). -/
def execMrrc (c : Cond) (rn rd : Reg) (cp opc crm : BitVec 4) (s : State) : Result :=
  whenPassed c s <|
    if cp = 14 then .refused .cp14Encoding
    else copOp cp s fun first second _ =>
      if anyPc [rd, rn] then .refused .r15Operand
      else if rd = rn then .refused .mrrcSameRegister
      else .next (advance 4 (setReg rn second (setReg rd first (copDone cp [message s (.mrrc c rn rd cp opc crm) []] s))))

end Sys2Proof.Machine
end

