-- ==== Sys2Proof/Machine/DataProcessing.lean ====
section
/-! DEFINITION. The ARM data-processing instructions and CLZ (spec/40_arm_data_processing.md). -/

namespace Sys2Proof.Machine

/-- The end of a data-processing instruction that writes `v` (R194, R196): to r15 it is a jump, or with S an exception
return; else `Rd` is written, and with S the CPSR becomes `flags`. -/
def finishDataOp (sf : Bool) (rd : Reg) (v flags : Word) (s : State) : Result :=
  if rd = 15 then (if sf then exceptionReturn v s else jumpArm v s)
  else .next (advance 4 (setCpsr (if sf then flags else s.cpsr) (setReg rd v s)))

/-- A data-processing instruction that writes a register. `sbzOk` says its should-be-zero field is zero; `regs` are its
registers beside those of `<Oprnd2>`; `f` gives the result and the CPSR with the new flags from the second operand. -/
def dataOp (c : Cond) (sf sbzOk : Bool) (regs : List Reg) (rd : Reg) (op2 : Operand2) (s : State)
    (f : Shifted → Word × Word) : Result :=
  whenPassed c s <|
    if !sbzOk then .refused .sbzSbo
    else if !operand2Allowed regs op2 then .refused .r15Operand
    else finishDataOp sf rd (f (operand2 s op2)).1 (f (operand2 s op2)).2 s

/-- A compare or test: only the flags are written (R205 to R208). -/
def compareOp (c : Cond) (sbzOk : Bool) (rn : Reg) (op2 : Operand2) (s : State) (f : Shifted → Word) : Result :=
  whenPassed c s <|
    if !sbzOk then .refused .sbzSbo
    else if !operand2Allowed [rn] op2 then .refused .r15Operand
    else .next (advance 4 (setCpsr (f (operand2 s op2)) s))

/-- A logical result and its flags (R194). -/
def logical (s : State) (v : Word) (b : Shifted) : Word × Word := (v, setLogical s.cpsr v b.carry)

/-- An arithmetic result and its flags (R194). -/
def arithmetic (s : State) (r : AluResult) : Word × Word := (r.value, setArithmetic s.cpsr r)

/-- AND (R197). -/
def execArmAnd (c : Cond) (sf : Bool) (rn rd : Reg) (op2 : Operand2) (s : State) : Result :=
  dataOp c sf true [rn, rd] rd op2 s fun b => logical s (armReg s rn &&& b.value) b

/-- EOR (R198). -/
def execArmEor (c : Cond) (sf : Bool) (rn rd : Reg) (op2 : Operand2) (s : State) : Result :=
  dataOp c sf true [rn, rd] rd op2 s fun b => logical s (armReg s rn ^^^ b.value) b

/-- SUB (R199). -/
def execArmSub (c : Cond) (sf : Bool) (rn rd : Reg) (op2 : Operand2) (s : State) : Result :=
  dataOp c sf true [rn, rd] rd op2 s fun b => arithmetic s (addWithCarry (armReg s rn) (~~~b.value) true)

/-- RSB (R200). -/
def execArmRsb (c : Cond) (sf : Bool) (rn rd : Reg) (op2 : Operand2) (s : State) : Result :=
  dataOp c sf true [rn, rd] rd op2 s fun b => arithmetic s (addWithCarry b.value (~~~armReg s rn) true)

/-- ADD (R201). -/
def execArmAdd (c : Cond) (sf : Bool) (rn rd : Reg) (op2 : Operand2) (s : State) : Result :=
  dataOp c sf true [rn, rd] rd op2 s fun b => arithmetic s (addWithCarry (armReg s rn) b.value false)

/-- ADC (R202). -/
def execArmAdc (c : Cond) (sf : Bool) (rn rd : Reg) (op2 : Operand2) (s : State) : Result :=
  dataOp c sf true [rn, rd] rd op2 s fun b => arithmetic s (addWithCarry (armReg s rn) b.value (psrC s.cpsr))

/-- SBC (R203). -/
def execArmSbc (c : Cond) (sf : Bool) (rn rd : Reg) (op2 : Operand2) (s : State) : Result :=
  dataOp c sf true [rn, rd] rd op2 s fun b => arithmetic s (addWithCarry (armReg s rn) (~~~b.value) (psrC s.cpsr))

/-- RSC (R204). -/
def execArmRsc (c : Cond) (sf : Bool) (rn rd : Reg) (op2 : Operand2) (s : State) : Result :=
  dataOp c sf true [rn, rd] rd op2 s fun b => arithmetic s (addWithCarry b.value (~~~armReg s rn) (psrC s.cpsr))

/-- TST (R205). -/
def execArmTst (c : Cond) (rn : Reg) (sbz : BitVec 4) (op2 : Operand2) (s : State) : Result :=
  compareOp c (sbz == 0) rn op2 s fun b => (logical s (armReg s rn &&& b.value) b).2

/-- TEQ (R206). -/
def execArmTeq (c : Cond) (rn : Reg) (sbz : BitVec 4) (op2 : Operand2) (s : State) : Result :=
  compareOp c (sbz == 0) rn op2 s fun b => (logical s (armReg s rn ^^^ b.value) b).2

/-- CMP (R207). -/
def execArmCmp (c : Cond) (rn : Reg) (sbz : BitVec 4) (op2 : Operand2) (s : State) : Result :=
  compareOp c (sbz == 0) rn op2 s fun b => (arithmetic s (addWithCarry (armReg s rn) (~~~b.value) true)).2

/-- CMN (R208). -/
def execArmCmn (c : Cond) (rn : Reg) (sbz : BitVec 4) (op2 : Operand2) (s : State) : Result :=
  compareOp c (sbz == 0) rn op2 s fun b => (arithmetic s (addWithCarry (armReg s rn) b.value false)).2

/-- ORR (R209). -/
def execArmOrr (c : Cond) (sf : Bool) (rn rd : Reg) (op2 : Operand2) (s : State) : Result :=
  dataOp c sf true [rn, rd] rd op2 s fun b => logical s (armReg s rn ||| b.value) b

/-- MOV (R210). -/
def execArmMov (c : Cond) (sf : Bool) (sbz : BitVec 4) (rd : Reg) (op2 : Operand2) (s : State) : Result :=
  dataOp c sf (sbz == 0) [rd] rd op2 s fun b => logical s b.value b

/-- BIC (R211). -/
def execArmBic (c : Cond) (sf : Bool) (rn rd : Reg) (op2 : Operand2) (s : State) : Result :=
  dataOp c sf true [rn, rd] rd op2 s fun b => logical s (armReg s rn &&& ~~~b.value) b

/-- MVN (R212). -/
def execArmMvn (c : Cond) (sf : Bool) (sbz : BitVec 4) (rd : Reg) (op2 : Operand2) (s : State) : Result :=
  dataOp c sf (sbz == 0) [rd] rd op2 s fun b => logical s (~~~b.value) b

/-- CLZ (R213). -/
def execClz (c : Cond) (sbo1 : BitVec 4) (rd : Reg) (sbo2 : BitVec 4) (rm : Reg) (s : State) : Result :=
  whenPassed c s <|
    if sbo1 != 15 || sbo2 != 15 then .refused .sbzSbo
    else if anyPc [rd, rm] then .refused .r15Operand
    else .next (advance 4 (setReg rd (armReg s rm).clz s))

end Sys2Proof.Machine
end

