-- ==== Sys2Proof/Machine/LoadStore.lean ====
section
/-! DEFINITION. The ARM single and double loads and stores, PLD, and the swaps (spec/43_arm_load_store.md;
44_arm_load_store_multiple.md R360, R361). -/

namespace Sys2Proof.Machine

/-- The register restrictions of R294: no r15 as `Rm`; r15 as `Rd` only where `pcOk`; with a base write-back, `Rn` is
not r15, `Rm` or `Rd`; P = 0 with W = 1 is no index mode here. -/
def loadStoreAllowed (idx : Index) (rn rd : Reg) (rm : Option Reg) (pcOk : Bool) : Bool :=
  idx != .postWriteback && rm != some 15 && (rd != 15 || pcOk) &&
    !(Index.writesBase idx && (rn == 15 || rm == some rn || rd == rn))

/-- The address of an access of mode 2 or 3 (R292). -/
def singleAddr (s : State) (idx : Index) (u : Bool) (rn : Reg) (offset : Word) : Word :=
  accessAddr idx (armReg s rn) offset u

/-- The base write-back of an access of mode 2 or 3 (R292), from registers as in `s`. -/
def singleBase (s : State) (idx : Index) (u : Bool) (rn : Reg) (offset : Word) : State → State :=
  writeBack idx rn (armReg s rn) offset u

/-- The end of a load (R295, R297): `Rd` and the base are written unless the access aborts. `len` is the length of the
instruction, `base` the base write-back. -/
def loadTo (len : Word) (a : Access) (rd : Reg) (v : Word) (base : State → State) (s : State) : Result :=
  guarded s a 0 (setReg rd v) fun t => .next (advance len (setReg rd v (base t)))

/-- The end of a store (R295, R297): memory, unless it ignores the write, and the base are written unless it aborts. -/
def storeFrom (len : Word) (a : Access) (v : Word) (base : State → State) (s : State) : Result :=
  guarded s a v (perform a v) fun t => .next (advance len (base (perform a v t)))

/-- A loaded word (R300): rotated when the address is unaligned (20_memory.md R99; entry 29). -/
def loadedWord (s : State) (addr : Word) : Word := rotateLoaded (readMem s .word addr) addr

/-- LDR (R300). To r15 it is a branch that may switch state. -/
def execLdr (c : Cond) (u : Bool) (idx : Index) (rn rd : Reg) (off : Offset2) (s : State) : Result :=
  let addr := singleAddr s idx u rn (offset2 s off)
  let base := singleBase s idx u rn (offset2 s off)
  let a := dataAccess s false .word false false addr
  whenPassed c s <|
    if !loadStoreAllowed idx rn rd (offset2Reg off) true then .refused .loadStoreRegisters
    else if rd = 15 then
      if fld 0 2 addr = 0#2 then guarded s a 0 id fun t => loadPc (readMem s .word addr) (base t)
      else .refused .misalignedPc
    else loadTo 4 a rd (loadedWord s addr) base s

/-- LDRB (R301). -/
def execLdrb (c : Cond) (u : Bool) (idx : Index) (rn rd : Reg) (off : Offset2) (s : State) : Result :=
  let addr := singleAddr s idx u rn (offset2 s off)
  whenPassed c s <|
    if !loadStoreAllowed idx rn rd (offset2Reg off) false then .refused .loadStoreRegisters
    else loadTo 4 (dataAccess s false .byte false false addr) rd (readMem s .byte addr)
      (singleBase s idx u rn (offset2 s off)) s

/-- LDRT (R302): post-indexed, shown with User privilege. -/
def execLdrt (c : Cond) (u : Bool) (rn rd : Reg) (off : Offset2) (s : State) : Result :=
  let addr := singleAddr s .postIndexed u rn (offset2 s off)
  whenPassed c s <|
    if !loadStoreAllowed .postIndexed rn rd (offset2Reg off) false then .refused .loadStoreRegisters
    else loadTo 4 (dataAccess s true .word false false addr) rd (loadedWord s addr)
      (singleBase s .postIndexed u rn (offset2 s off)) s

/-- LDRBT (R303). -/
def execLdrbt (c : Cond) (u : Bool) (rn rd : Reg) (off : Offset2) (s : State) : Result :=
  let addr := singleAddr s .postIndexed u rn (offset2 s off)
  whenPassed c s <|
    if !loadStoreAllowed .postIndexed rn rd (offset2Reg off) false then .refused .loadStoreRegisters
    else loadTo 4 (dataAccess s true .byte false false addr) rd (readMem s .byte addr)
      (singleBase s .postIndexed u rn (offset2 s off)) s

/-- STR (R320). -/
def execStr (c : Cond) (u : Bool) (idx : Index) (rn rd : Reg) (off : Offset2) (s : State) : Result :=
  let addr := singleAddr s idx u rn (offset2 s off)
  whenPassed c s <|
    if !loadStoreAllowed idx rn rd (offset2Reg off) true then .refused .loadStoreRegisters
    else storeFrom 4 (dataAccess s false .word true false addr) (storeReg s rd)
      (singleBase s idx u rn (offset2 s off)) s

/-- STRB (R321). -/
def execStrb (c : Cond) (u : Bool) (idx : Index) (rn rd : Reg) (off : Offset2) (s : State) : Result :=
  let addr := singleAddr s idx u rn (offset2 s off)
  whenPassed c s <|
    if !loadStoreAllowed idx rn rd (offset2Reg off) false then .refused .loadStoreRegisters
    else storeFrom 4 (dataAccess s false .byte true false addr) (armReg s rd)
      (singleBase s idx u rn (offset2 s off)) s

/-- STRT (R322). -/
def execStrt (c : Cond) (u : Bool) (rn rd : Reg) (off : Offset2) (s : State) : Result :=
  let addr := singleAddr s .postIndexed u rn (offset2 s off)
  whenPassed c s <|
    if !loadStoreAllowed .postIndexed rn rd (offset2Reg off) false then .refused .loadStoreRegisters
    else storeFrom 4 (dataAccess s true .word true false addr) (armReg s rd)
      (singleBase s .postIndexed u rn (offset2 s off)) s

/-- STRBT (R323). -/
def execStrbt (c : Cond) (u : Bool) (rn rd : Reg) (off : Offset2) (s : State) : Result :=
  let addr := singleAddr s .postIndexed u rn (offset2 s off)
  whenPassed c s <|
    if !loadStoreAllowed .postIndexed rn rd (offset2Reg off) false then .refused .loadStoreRegisters
    else storeFrom 4 (dataAccess s true .byte true false addr) (armReg s rd)
      (singleBase s .postIndexed u rn (offset2 s off)) s

/-- What an instruction of mode 3 checks before its access (R293, R294, 20_memory.md R99): `aligned` says the address
suits its size. -/
def mode3 (c : Cond) (idx : Index) (rn rd : Reg) (off : Offset3) (aligned : Bool) (s : State) (r : Result) : Result :=
  whenPassed c s <|
    if !offset3Sbz off then .refused .sbzSbo
    else if !loadStoreAllowed idx rn rd (offset3Reg off) false then .refused .loadStoreRegisters
    else if !aligned then .refused .unalignedAccess
    else r

/-- A halfword address (20_memory.md R94). -/
def halfAligned (a : Word) : Bool := !flag 0 a

/-- A doubleword address: a multiple of 8 (R307). -/
def doubleAligned (a : Word) : Bool := fld 0 3 a == 0#3

/-- LDRH (R304). -/
def execLdrh (c : Cond) (u : Bool) (idx : Index) (rn rd : Reg) (off : Offset3) (s : State) : Result :=
  let addr := singleAddr s idx u rn (offset3 s off)
  mode3 c idx rn rd off (halfAligned addr) s <|
    loadTo 4 (dataAccess s false .half false false addr) rd (readMem s .half addr)
      (singleBase s idx u rn (offset3 s off)) s

/-- LDRSB (R305). -/
def execLdrsb (c : Cond) (u : Bool) (idx : Index) (rn rd : Reg) (off : Offset3) (s : State) : Result :=
  let addr := singleAddr s idx u rn (offset3 s off)
  mode3 c idx rn rd off true s <|
    loadTo 4 (dataAccess s false .byte false false addr) rd (sext (fld 0 8 (readMem s .byte addr)))
      (singleBase s idx u rn (offset3 s off)) s

/-- LDRSH (R306). -/
def execLdrsh (c : Cond) (u : Bool) (idx : Index) (rn rd : Reg) (off : Offset3) (s : State) : Result :=
  let addr := singleAddr s idx u rn (offset3 s off)
  mode3 c idx rn rd off (halfAligned addr) s <|
    loadTo 4 (dataAccess s false .half false false addr) rd (sext (fld 0 16 (readMem s .half addr)))
      (singleBase s idx u rn (offset3 s off)) s

/-- STRH (R324). -/
def execStrh (c : Cond) (u : Bool) (idx : Index) (rn rd : Reg) (off : Offset3) (s : State) : Result :=
  let addr := singleAddr s idx u rn (offset3 s off)
  mode3 c idx rn rd off (halfAligned addr) s <|
    storeFrom 4 (dataAccess s false .half true false addr) (armReg s rd) (singleBase s idx u rn (offset3 s off)) s

/-- The pair restrictions of LDRD and STRD (R307, R325): `Rd` even and not r14; with write-back the base is not in the
pair; `loadOff` is the offset register a load may not overwrite. Odd `Rd` is refused, not trapped (entry 38). -/
def pairAllowed (idx : Index) (rn rd : Reg) (loadOff : Option Reg) : Bool :=
  !flag 0 rd && rd != 14 && !(Index.writesBase idx && rn == rd + 1) && loadOff != some rd && loadOff != some (rd + 1)

/-- LDRD (R307): two word loads, as an LDM of two registers. -/
def execLdrd (c : Cond) (u : Bool) (idx : Index) (rn rd : Reg) (off : Offset3) (s : State) : Result :=
  let addr := singleAddr s idx u rn (offset3 s off)
  mode3 c idx rn rd off (doubleAligned addr) s <|
    if !pairAllowed idx rn rd (offset3Reg off) then .refused .loadStoreRegisters
    else (loadList setReg (setReg rn (armReg s rn)) [rd, rd + 1] addr s).thenDo fun s' =>
      .next (advance 4 (singleBase s idx u rn (offset3 s off) s'))

/-- STRD (R325): two word stores, as an STM of two registers. -/
def execStrd (c : Cond) (u : Bool) (idx : Index) (rn rd : Reg) (off : Offset3) (s : State) : Result :=
  let addr := singleAddr s idx u rn (offset3 s off)
  mode3 c idx rn rd off (doubleAligned addr) s <|
    if !pairAllowed idx rn rd none then .refused .loadStoreRegisters
    else (storeList [armReg s rd, armReg s (rd + 1)] addr s).thenDo fun s' =>
      .next (advance 4 (singleBase s idx u rn (offset3 s off) s'))

/-- PLD (R330): no effect but the PC (20_memory.md R110; entry 36). A register offset with bit 4 set is no addressing
mode 2 form (R291). -/
def execPld (i _u : Bool) (_rn : Reg) (addrMode : BitVec 12) (s : State) : Result :=
  if i && flag 4 addrMode then .refused .unallocated
  else if i && (fld 0 4 addrMode == 15#4) then .refused .r15Operand
  else .next (advance 4 s)

/-- A swap (R360): a locked read, then a locked write of `new`; `old` goes to `Rd` only if neither aborts. Both accesses show
the abort rules and the debug logic `R[Rn]` with its low bits, which R360 masks (DESIGN CHOICE, entry 56). -/
def swapOp (c : Cond) (size : Size) (rn rd : Reg) (sbz : BitVec 4) (rm : Reg) (old : Word) (s : State) : Result :=
  let addr := armReg s rn
  let new := armReg s rm
  let write := dataAccess s false size true true addr
  whenPassed c s <|
    if sbz != 0 then .refused .sbzSbo
    else if anyPc [rd, rm, rn] || rn == rm || rn == rd then .refused .loadStoreRegisters
    else guarded s (dataAccess s false size false true addr) 0 id fun t =>
      guarded t write new (perform write new) fun t' => .next (advance 4 (setReg rd old (perform write new t')))

/-- SWP (R360): the word read is rotated as for LDR. -/
def execSwp (c : Cond) (rn rd : Reg) (sbz : BitVec 4) (rm : Reg) (s : State) : Result :=
  swapOp c .word rn rd sbz rm (loadedWord s (armReg s rn)) s

/-- SWPB (R361). -/
def execSwpb (c : Cond) (rn rd : Reg) (sbz : BitVec 4) (rm : Reg) (s : State) : Result :=
  swapOp c .byte rn rd sbz rm (readMem s .byte (armReg s rn)) s

end Sys2Proof.Machine
end

