-- ==== Sys2Proof/Machine/Multiply.lean ====
section
/-! DEFINITION. The ARM multiply, saturating and 16-bit signed multiply instructions
(spec/41_arm_multiply_dsp.md). -/

namespace Sys2Proof.Machine

/-- A multiply that passes its condition and its register restrictions (R231) and writes no r15: `regs` are all its
registers, `clash` its forbidden equalities, `sbzOk` its should-be-zero field. -/
def multiplyOp (c : Cond) (sbzOk : Bool) (regs : List Reg) (clash : Bool) (s : State) (next : State) : Result :=
  whenPassed c s <|
    if !sbzOk then .refused .sbzSbo
    else if anyPc regs || clash then .refused .multiplyRegisters
    else .next (advance 4 next)

/-- Write a 32-bit product and, with S, its N and Z (R232). -/
def finishMul (sf : Bool) (rd : Reg) (v : Word) (s : State) : State :=
  setCpsr (if sf then setResultNZ s.cpsr v else s.cpsr) (setReg rd v s)

/-- Write a 64-bit product and, with S, its N and Z (R234). -/
def finishMulLong (sf : Bool) (rdHi rdLo : Reg) (v : BitVec 64) (s : State) : State :=
  setCpsr (if sf then setNZ s.cpsr v.msb (v == 0) else s.cpsr) (setRegPair rdHi rdLo v s)

/-- The 64-bit accumulator `R[RdHi] : R[RdLo]` (R236). -/
def accumulator (s : State) (rdHi rdLo : Reg) : BitVec 64 := armReg s rdHi ++ armReg s rdLo

/-- The unsigned product of two registers. -/
def uProduct (s : State) (rm rs : Reg) : BitVec 64 := BitVec.ofNat 64 ((armReg s rm).toNat * (armReg s rs).toNat)

/-- The signed product of two registers. -/
def sProduct (s : State) (rm rs : Reg) : BitVec 64 := BitVec.ofInt 64 ((armReg s rm).toInt * (armReg s rs).toInt)

/-- The 16 by 16 product of the halves `x` of `Rm` and `y` of `Rs` (R244). -/
def halfProduct (s : State) (rm rs : Reg) (x y : Bool) : Int := halfInt (armReg s rm) x * halfInt (armReg s rs) y

/-- Bits 47:16 of the product of `Rm` and the half `y` of `Rs`, as a signed integer (R247, R248). -/
def wideProduct (s : State) (rm rs : Reg) (y : Bool) : Int := (armReg s rm).toInt * halfInt (armReg s rs) y / 65536

/-- The registers a 32 by 32 to 64 multiply may not have equal (R231). -/
def longClash (rdHi rdLo rm : Reg) : Bool := rdHi == rdLo || rdHi == rm || rdLo == rm

/-- Write a saturated result, and Q if the result or an earlier step saturated (R239). -/
def finishSat (rd : Reg) (x : Int) (earlier : Bool) (s : State) : State :=
  setCpsr (stickyQ s.cpsr (earlier || doesSat x)) (setReg rd (BitVec.ofInt 32 (sat x)) s)

/-- Write a sum that wraps, and Q if it does not fit (R246). -/
def finishAcc (rd : Reg) (x : Int) (s : State) : State :=
  setCpsr (stickyQ s.cpsr (doesSat x)) (setReg rd (BitVec.ofInt 32 x) s)

/-- MUL (R232). -/
def execMul (c : Cond) (sf : Bool) (rd : Reg) (sbz : BitVec 4) (rs rm : Reg) (s : State) : Result :=
  multiplyOp c (sbz == 0) [rd, rs, rm] (rd == rm) s (finishMul sf rd (armReg s rm * armReg s rs) s)

/-- MLA (R233). -/
def execMla (c : Cond) (sf : Bool) (rd rn rs rm : Reg) (s : State) : Result :=
  multiplyOp c true [rd, rn, rs, rm] (rd == rm) s (finishMul sf rd (armReg s rm * armReg s rs + armReg s rn) s)

/-- UMULL (R234). -/
def execUmull (c : Cond) (sf : Bool) (rdHi rdLo rs rm : Reg) (s : State) : Result :=
  multiplyOp c true [rdHi, rdLo, rs, rm] (longClash rdHi rdLo rm) s (finishMulLong sf rdHi rdLo (uProduct s rm rs) s)

/-- UMLAL (R235). -/
def execUmlal (c : Cond) (sf : Bool) (rdHi rdLo rs rm : Reg) (s : State) : Result :=
  multiplyOp c true [rdHi, rdLo, rs, rm] (longClash rdHi rdLo rm) s (finishMulLong sf rdHi rdLo (accumulator s rdHi rdLo + uProduct s rm rs) s)

/-- SMULL (R237). -/
def execSmull (c : Cond) (sf : Bool) (rdHi rdLo rs rm : Reg) (s : State) : Result :=
  multiplyOp c true [rdHi, rdLo, rs, rm] (longClash rdHi rdLo rm) s (finishMulLong sf rdHi rdLo (sProduct s rm rs) s)

/-- SMLAL (R238). -/
def execSmlal (c : Cond) (sf : Bool) (rdHi rdLo rs rm : Reg) (s : State) : Result :=
  multiplyOp c true [rdHi, rdLo, rs, rm] (longClash rdHi rdLo rm) s (finishMulLong sf rdHi rdLo (accumulator s rdHi rdLo + sProduct s rm rs) s)

/-- QADD (R240). -/
def execQadd (c : Cond) (rn rd : Reg) (sbz : BitVec 4) (rm : Reg) (s : State) : Result :=
  multiplyOp c (sbz == 0) [rn, rd, rm] false s
    (finishSat rd ((armReg s rm).toInt + (armReg s rn).toInt) false s)

/-- QSUB (R241). -/
def execQsub (c : Cond) (rn rd : Reg) (sbz : BitVec 4) (rm : Reg) (s : State) : Result :=
  multiplyOp c (sbz == 0) [rn, rd, rm] false s
    (finishSat rd ((armReg s rm).toInt - (armReg s rn).toInt) false s)

/-- QDADD (R242). -/
def execQdadd (c : Cond) (rn rd : Reg) (sbz : BitVec 4) (rm : Reg) (s : State) : Result :=
  multiplyOp c (sbz == 0) [rn, rd, rm] false s
    (finishSat rd ((armReg s rm).toInt + sat (2 * (armReg s rn).toInt)) (doesSat (2 * (armReg s rn).toInt)) s)

/-- QDSUB (R243). -/
def execQdsub (c : Cond) (rn rd : Reg) (sbz : BitVec 4) (rm : Reg) (s : State) : Result :=
  multiplyOp c (sbz == 0) [rn, rd, rm] false s
    (finishSat rd ((armReg s rm).toInt - sat (2 * (armReg s rn).toInt)) (doesSat (2 * (armReg s rn).toInt)) s)

/-- SMLAxy (R246). -/
def execSmlaXY (c : Cond) (rd rn rs : Reg) (y x : Bool) (rm : Reg) (s : State) : Result :=
  multiplyOp c true [rd, rn, rs, rm] false s (finishAcc rd (halfProduct s rm rs x y + (armReg s rn).toInt) s)

/-- SMLAWy (R248). -/
def execSmlawY (c : Cond) (rd rn rs : Reg) (y : Bool) (rm : Reg) (s : State) : Result :=
  multiplyOp c true [rd, rn, rs, rm] false s (finishAcc rd (wideProduct s rm rs y + (armReg s rn).toInt) s)

/-- SMULWy (R247). -/
def execSmulwY (c : Cond) (rd : Reg) (sbz : BitVec 4) (rs : Reg) (y : Bool) (rm : Reg) (s : State) : Result :=
  multiplyOp c (sbz == 0) [rd, rs, rm] false s (setReg rd (BitVec.ofInt 32 (wideProduct s rm rs y)) s)

/-- SMLALxy (R249). -/
def execSmlalXY (c : Cond) (rdHi rdLo rs : Reg) (y x : Bool) (rm : Reg) (s : State) : Result :=
  multiplyOp c true [rdHi, rdLo, rs, rm] (rdHi == rdLo) s
    (setRegPair rdHi rdLo (accumulator s rdHi rdLo + BitVec.ofInt 64 (halfProduct s rm rs x y)) s)

/-- SMULxy (R245). -/
def execSmulXY (c : Cond) (rd : Reg) (sbz : BitVec 4) (rs : Reg) (y x : Bool) (rm : Reg) (s : State) : Result :=
  multiplyOp c (sbz == 0) [rd, rs, rm] false s (setReg rd (BitVec.ofInt 32 (halfProduct s rm rs x y)) s)

end Sys2Proof.Machine
end

