-- ==== Sys2Proof/Machine/Status.lean ====
section
/-! DEFINITION. MRS, MSR, SWI, BKPT and the no-operation word (spec/45_arm_status_swi_bkpt.md). -/

namespace Sys2Proof.Machine

/-- The bits of the PSR bytes that a field mask selects (R372). -/
def fieldBits (mask : BitVec 4) : Word :=
  (if mask.getLsbD 0 then 0x000000FF else 0) ||| (if mask.getLsbD 1 then 0x0000FF00 else 0) |||
    (if mask.getLsbD 2 then 0x00FF0000 else 0) ||| (if mask.getLsbD 3 then 0xFF000000 else 0)

/-- A PSR with the selected bits taken from an operand. -/
def mergePsr (old operand bits : Word) : Word := (old &&& ~~~bits) ||| (operand &&& bits)

/-- MSR with its operand (R372): User mode writes only the flags byte of the CPSR; a CPSR write may not change T. -/
def msrOp (r : Bool) (mask : BitVec 4) (operand : Word) (s : State) : Result :=
  if mask = 0 then .refused .msrNoFields
  else if r then
    match spsr s with
    | none => .refused .noSpsr
    | some old => .next (advance 4 (setSpsrAt (mode s) (mergePsr old operand (fieldBits mask)) s))
  else
    let bits := if privileged s then fieldBits mask else fieldBits mask &&& 0xFF000000
    let new := mergePsr s.cpsr operand bits
    if psrT new = psrT s.cpsr then .next (advance 4 (setCpsr new s)) else .refused .msrChangesT

/-- MRS (R371). -/
def execMrs (c : Cond) (r : Bool) (sbo : BitVec 4) (rd : Reg) (sbz1 sbz2 : BitVec 4) (s : State) : Result :=
  whenPassed c s <|
    if sbo != 15 || sbz1 != 0 || sbz2 != 0 then .refused .sbzSbo
    else if anyPc [rd] then .refused .r15Operand
    else if r then
      match spsr s with
      | none => .refused .noSpsr
      | some v => .next (advance 4 (setReg rd v s))
    else .next (advance 4 (setReg rd s.cpsr s))

/-- MSR from a register (R372). -/
def execMsrReg (c : Cond) (r : Bool) (mask sbo sbz : BitVec 4) (rm : Reg) (s : State) : Result :=
  whenPassed c s <|
    if sbo != 15 || sbz != 0 then .refused .sbzSbo
    else if anyPc [rm] then .refused .r15Operand
    else msrOp r mask (armReg s rm) s

/-- MSR of an immediate (R373). -/
def execMsrImm (c : Cond) (r : Bool) (mask sbo rot : BitVec 4) (imm8 : BitVec 8) (s : State) : Result :=
  whenPassed c s <|
    if sbo != 15 then .refused .sbzSbo
    else msrOp r mask (rotatedImm false rot imm8).value s

/-- SWI (R374): the immediate is ignored. -/
def execArmSwi (c : Cond) (_imm24 : BitVec 24) (s : State) : Result := whenPassed c s (.next (swiTrap 4 s))

/-- A software breakpoint (R375, 60_exceptions.md R564, R615): a Prefetch Abort, but debug state in halt mode. -/
def breakpoint (s : State) : Result :=
  if s.pins.dbgEn && !s.dbg.monitorMode then .fault .debugState else .next (prefetchAbort s)

/-- BKPT (R375): the condition must be AL. -/
def execBkpt (c : Cond) (_immHi : BitVec 12) (_immLo : BitVec 4) (s : State) : Result :=
  whenPassed c s <| if c = .al then breakpoint s else .refused .bkptCondition

/-- The no-operation word 0xE320F000 (R376). -/
def execNop (s : State) : Result := .next (advance 4 s)

end Sys2Proof.Machine
end

