-- ==== Sys2Proof/Machine/ThumbData.lean ====
section
/-! DEFINITION. The Thumb data-processing instructions (spec/47_thumb_data_processing.md). -/

namespace Sys2Proof.Machine

/-- `R[r]` for a low register. -/
def low (s : State) (r : LowReg) : Word := thumbReg s (lowReg r)

/-- Write a low register and the CPSR with its new flags, and advance. -/
def thumbWrite (rd : LowReg) (v flags : Word) (s : State) : Result :=
  .next (advance 2 (setCpsr flags (setReg (lowReg rd) v s)))

/-- Write only the flags, and advance. -/
def thumbFlags (flags : Word) (s : State) : Result := .next (advance 2 (setCpsr flags s))

/-- A result with its N and Z; C and V unchanged (section 4: "Logical flags"). -/
def thumbLogical (rd : LowReg) (v : Word) (s : State) : Result := thumbWrite rd v (setResultNZ s.cpsr v) s

/-- A shifted result with N, Z and the carry of the shift (R432, R445). -/
def thumbShift (rd : LowReg) (r : Shifted) (s : State) : Result :=
  thumbWrite rd r.value (setLogical s.cpsr r.value r.carry) s

/-- An arithmetic result with N, Z, C and V (R435). -/
def thumbArithmetic (rd : LowReg) (r : AluResult) (s : State) : Result :=
  thumbWrite rd r.value (setArithmetic s.cpsr r) s

/-- LSL by an immediate (R432). -/
def execTLslImm (imm5 : BitVec 5) (rs rd : LowReg) (s : State) : Result :=
  thumbShift rd (shiftByImm (psrC s.cpsr) .lsl (low s rs) imm5) s

/-- LSR by an immediate (R433). -/
def execTLsrImm (imm5 : BitVec 5) (rs rd : LowReg) (s : State) : Result :=
  thumbShift rd (shiftByImm (psrC s.cpsr) .lsr (low s rs) imm5) s

/-- ASR by an immediate (R434). -/
def execTAsrImm (imm5 : BitVec 5) (rs rd : LowReg) (s : State) : Result :=
  thumbShift rd (shiftByImm (psrC s.cpsr) .asr (low s rs) imm5) s

/-- ADD (R435). -/
def execTAddReg (rn rs rd : LowReg) (s : State) : Result := thumbArithmetic rd (addWithCarry (low s rs) (low s rn) false) s

/-- SUB (R436). -/
def execTSubReg (rn rs rd : LowReg) (s : State) : Result := thumbArithmetic rd (addWithCarry (low s rs) (~~~low s rn) true) s

/-- ADD (R437). -/
def execTAddImm3 (imm3 : BitVec 3) (rs rd : LowReg) (s : State) : Result := thumbArithmetic rd (addWithCarry (low s rs) (zext imm3) false) s

/-- SUB (R438). -/
def execTSubImm3 (imm3 : BitVec 3) (rs rd : LowReg) (s : State) : Result := thumbArithmetic rd (addWithCarry (low s rs) (~~~zext imm3) true) s

/-- ADD (R441). -/
def execTAddImm8 (rd : LowReg) (imm8 : BitVec 8) (s : State) : Result := thumbArithmetic rd (addWithCarry (low s rd) (zext imm8) false) s

/-- SUB (R442). -/
def execTSubImm8 (rd : LowReg) (imm8 : BitVec 8) (s : State) : Result := thumbArithmetic rd (addWithCarry (low s rd) (~~~zext imm8) true) s

/-- MOV of an immediate (R439). -/
def execTMovImm (rd : LowReg) (imm8 : BitVec 8) (s : State) : Result := thumbLogical rd (zext imm8) s

/-- CMP with an immediate (R440). -/
def execTCmpImm (rd : LowReg) (imm8 : BitVec 8) (s : State) : Result :=
  thumbFlags (setArithmetic s.cpsr (addWithCarry (low s rd) (~~~zext imm8) true)) s

/-- AND (R443). -/
def execTAnd (rs rd : LowReg) (s : State) : Result := thumbLogical rd (low s rd &&& low s rs) s

/-- EOR (R444). -/
def execTEor (rs rd : LowReg) (s : State) : Result := thumbLogical rd (low s rd ^^^ low s rs) s

/-- LSL (R445). -/
def execTLslReg (rs rd : LowReg) (s : State) : Result :=
  thumbShift rd (shiftByReg (psrC s.cpsr) .lsl (low s rd) (fld 0 8 (low s rs))) s

/-- LSR (R446). -/
def execTLsrReg (rs rd : LowReg) (s : State) : Result :=
  thumbShift rd (shiftByReg (psrC s.cpsr) .lsr (low s rd) (fld 0 8 (low s rs))) s

/-- ASR (R447). -/
def execTAsrReg (rs rd : LowReg) (s : State) : Result :=
  thumbShift rd (shiftByReg (psrC s.cpsr) .asr (low s rd) (fld 0 8 (low s rs))) s

/-- ADC (R448). -/
def execTAdc (rs rd : LowReg) (s : State) : Result :=
  thumbArithmetic rd (addWithCarry (low s rd) (low s rs) (psrC s.cpsr)) s

/-- SBC (R449). -/
def execTSbc (rs rd : LowReg) (s : State) : Result :=
  thumbArithmetic rd (addWithCarry (low s rd) (~~~low s rs) (psrC s.cpsr)) s

/-- ROR (R450). -/
def execTRor (rs rd : LowReg) (s : State) : Result :=
  thumbShift rd (shiftByReg (psrC s.cpsr) .ror (low s rd) (fld 0 8 (low s rs))) s

/-- TST (R451). -/
def execTTst (rs rd : LowReg) (s : State) : Result :=
  thumbFlags (setResultNZ s.cpsr (low s rd &&& low s rs)) s

/-- NEG (R452). -/
def execTNeg (rs rd : LowReg) (s : State) : Result :=
  thumbArithmetic rd (addWithCarry (~~~low s rs) 0 true) s

/-- CMP (R453). -/
def execTCmpReg (rs rd : LowReg) (s : State) : Result :=
  thumbFlags (setArithmetic s.cpsr (addWithCarry (low s rd) (~~~low s rs) true)) s

/-- CMN (R454). -/
def execTCmn (rs rd : LowReg) (s : State) : Result :=
  thumbFlags (setArithmetic s.cpsr (addWithCarry (low s rd) (low s rs) false)) s

/-- ORR (R455). -/
def execTOrr (rs rd : LowReg) (s : State) : Result := thumbLogical rd (low s rd ||| low s rs) s

/-- MUL (R456). -/
def execTMul (rs rd : LowReg) (s : State) : Result :=
  if rd = rs then .refused .multiplyRegisters else thumbLogical rd (low s rd * low s rs) s

/-- BIC (R457). -/
def execTBic (rs rd : LowReg) (s : State) : Result := thumbLogical rd (low s rd &&& ~~~low s rs) s

/-- MVN (R458). -/
def execTMvn (rs rd : LowReg) (s : State) : Result := thumbLogical rd (~~~low s rs) s

/-- A write to a register of the high forms: r15 is a jump that stays in Thumb state (R473). -/
def highWrite (d : Reg) (v : Word) (s : State) : Result :=
  if d = 15 then .next (branchTo (evenAddr v) s) else .next (advance 2 (setReg d v s))

/-- ADD of high registers (R470): no flags. -/
def execTAddHigh (h1 h2 : Bool) (rs rd : LowReg) (s : State) : Result :=
  if !h1 && !h2 then .refused .thumbHighForm
  else highWrite (highReg h1 rd) (thumbReg s (highReg h1 rd) + thumbReg s (highReg h2 rs)) s

/-- CMP of high registers (R471). -/
def execTCmpHigh (h1 h2 : Bool) (rs rd : LowReg) (s : State) : Result :=
  if (!h1 && !h2) || highReg h1 rd == 15 then .refused .thumbHighForm
  else thumbFlags (setArithmetic s.cpsr
    (addWithCarry (thumbReg s (highReg h1 rd)) (~~~thumbReg s (highReg h2 rs)) true)) s

/-- MOV of high registers (R472): no flags. -/
def execTMovHigh (h1 h2 : Bool) (rs rd : LowReg) (s : State) : Result :=
  if !h1 && !h2 then .refused .thumbHighForm
  else highWrite (highReg h1 rd) (thumbReg s (highReg h2 rs)) s

/-- The PC with bits 1:0 cleared, as PC-relative Thumb instructions read it (R474, 48_thumb_branch_load_store.md R491). -/
def thumbPcBase (s : State) : Word := (s.pc + 4) &&& 0xFFFFFFFC

/-- ADD Rd, PC (R474). -/
def execTAddPc (rd : LowReg) (imm8 : BitVec 8) (s : State) : Result :=
  .next (advance 2 (setReg (lowReg rd) (thumbPcBase s + (zext imm8 <<< 2)) s))

/-- ADD Rd, SP (R475). -/
def execTAddSp (rd : LowReg) (imm8 : BitVec 8) (s : State) : Result :=
  .next (advance 2 (setReg (lowReg rd) (thumbReg s 13 + (zext imm8 <<< 2)) s))

/-- ADD SP (R476). -/
def execTIncSp (imm7 : BitVec 7) (s : State) : Result :=
  .next (advance 2 (setReg 13 (thumbReg s 13 + (zext imm7 <<< 2)) s))

/-- SUB SP (R477). -/
def execTDecSp (imm7 : BitVec 7) (s : State) : Result :=
  .next (advance 2 (setReg 13 (thumbReg s 13 - (zext imm7 <<< 2)) s))

end Sys2Proof.Machine
end

