-- ==== Sys2Proof/Machine/ThumbBranch.lean ====
section
/-! DEFINITION. The Thumb branches, SWI, BKPT and undefined halfwords (spec/48_thumb_branch_load_store.md R520 to
R542). -/

namespace Sys2Proof.Machine

/-- The link value of a Thumb branch: the next instruction's address with bit 0 set (R523). -/
def thumbLink (s : State) : Word := (s.pc + 2) ||| 1

/-- B on a condition (R520). -/
def execTBCond (c : Cond) (simm8 : BitVec 8) (s : State) : Result :=
  if condPassed c s.cpsr then .next (branchTo (s.pc + 4 + (sext simm8 <<< 1)) s) else .next (advance 2 s)

/-- B (R521). -/
def execTB (simm11 : BitVec 11) (s : State) : Result := .next (branchTo (s.pc + 4 + (sext simm11 <<< 1)) s)

/-- BX (R522). -/
def execTBx (rs : Reg) (sbz : BitVec 3) (s : State) : Result :=
  if sbz != 0 then .refused .sbzSbo else branchExchange (thumbReg s rs) s

/-- BLX to a register (R523): the register is read before r14 is written. -/
def execTBlxReg (rs : Reg) (sbz : BitVec 3) (s : State) : Result :=
  if sbz != 0 then .refused .sbzSbo
  else if anyPc [rs] then .refused .r15Operand
  else branchExchange (thumbReg s rs) (setReg 14 (thumbLink s) s)

/-- First half of BL and BLX (R530). -/
def execTBlHigh (offset11 : BitVec 11) (s : State) : Result :=
  .next (advance 2 (setReg 14 (s.pc + 4 + (sext offset11 <<< 12)) s))

/-- Second half of BLX (R531): `offset10` is offset_lo without its bit 0, which is 0. -/
def execTBlxLow (offset10 : BitVec 10) (s : State) : Result :=
  .next (branchTo ((thumbReg s 14 + (zext offset10 <<< 2)) &&& 0xFFFFFFFC) (setT false (setReg 14 (thumbLink s) s)))

/-- Second half of BL (R532). -/
def execTBlLow (offset11 : BitVec 11) (s : State) : Result :=
  .next (branchTo (evenAddr (thumbReg s 14 + (zext offset11 <<< 1))) (setReg 14 (thumbLink s) s))

/-- SWI (R540): the immediate is ignored. -/
def execTSwi (_imm8 : BitVec 8) (s : State) : Result := .next (swiTrap 2 s)

/-- BKPT (R541). -/
def execTBkpt (_imm8 : BitVec 8) (s : State) : Result := breakpoint s

/-- 0xDExx (R542). -/
def execTUndefDE (_imm8 : BitVec 8) (s : State) : Result := .next (undefinedTrap 2 s)

/-- 11101 with bit 0 = 1 (R542). -/
def execTUndef11101 (_bits : BitVec 10) (s : State) : Result := .next (undefinedTrap 2 s)

/-- The unallocated part of the 1011 space (R542; entry 33). -/
def execTUndef1011 (_bits : BitVec 12) (s : State) : Result := .next (undefinedTrap 2 s)

end Sys2Proof.Machine
end

