-- ==== Sys2Proof/Machine/ThumbMemory.lean ====
section
/-! DEFINITION. The Thumb loads and stores (spec/48_thumb_branch_load_store.md R490 to R513). -/

namespace Sys2Proof.Machine

/-- A Thumb load (R490). -/
def thumbLoad (size : Size) (addr : Word) (rd : LowReg) (v : Word) (s : State) : Result :=
  loadTo 2 (dataAccess s false size false false addr) (lowReg rd) v id s

/-- A Thumb store (R490). -/
def thumbStore (size : Size) (addr : Word) (rd : LowReg) (s : State) : Result :=
  storeFrom 2 (dataAccess s false size true false addr) (low s rd) id s

/-- A halfword access at an odd address is refused (R490, 20_memory.md R99). -/
def thumbHalf (addr : Word) (r : Result) : Result := if halfAligned addr then r else .refused .unalignedAccess

/-- `R[Rb] + R[Ro]`. -/
def regOffset (s : State) (ro rb : LowReg) : Word := low s rb + low s ro

/-- `R[Rb]` plus an immediate scaled by a power of two. -/
def immOffset (s : State) (imm5 : BitVec 5) (rb : LowReg) (scale : Nat) : Word := low s rb + (zext imm5 <<< scale)

/-- `R[13]` plus an immediate in words. -/
def spOffset (s : State) (imm8 : BitVec 8) : Word := thumbReg s 13 + (zext imm8 <<< 2)

/-- LDR PC-relative (R491). -/
def execTLdrPc (rd : LowReg) (imm8 : BitVec 8) (s : State) : Result :=
  let addr := thumbPcBase s + (zext imm8 <<< 2)
  thumbLoad .word addr rd (readMem s .word addr) s

/-- STR, register offset (R492). -/
def execTStrReg (ro rb rd : LowReg) (s : State) : Result :=
  thumbStore .word (regOffset s ro rb) rd s

/-- STRH, register offset (R493). -/
def execTStrhReg (ro rb rd : LowReg) (s : State) : Result :=
  thumbHalf (regOffset s ro rb) (thumbStore .half (regOffset s ro rb) rd s)

/-- STRB, register offset (R494). -/
def execTStrbReg (ro rb rd : LowReg) (s : State) : Result :=
  thumbStore .byte (regOffset s ro rb) rd s

/-- LDRSB (R495). -/
def execTLdrsb (ro rb rd : LowReg) (s : State) : Result :=
  let addr := regOffset s ro rb
  thumbLoad .byte addr rd (sext (fld 0 8 (readMem s .byte addr))) s

/-- LDR, register offset (R496). -/
def execTLdrReg (ro rb rd : LowReg) (s : State) : Result :=
  let addr := regOffset s ro rb
  thumbLoad .word addr rd (loadedWord s addr) s

/-- LDRH, register offset (R497). -/
def execTLdrhReg (ro rb rd : LowReg) (s : State) : Result :=
  let addr := regOffset s ro rb
  thumbHalf addr (thumbLoad .half addr rd (readMem s .half addr) s)

/-- LDRB, register offset (R498). -/
def execTLdrbReg (ro rb rd : LowReg) (s : State) : Result :=
  let addr := regOffset s ro rb
  thumbLoad .byte addr rd (readMem s .byte addr) s

/-- LDRSH (R499). -/
def execTLdrsh (ro rb rd : LowReg) (s : State) : Result :=
  let addr := regOffset s ro rb
  thumbHalf addr (thumbLoad .half addr rd (sext (fld 0 16 (readMem s .half addr))) s)

/-- STR, immediate offset (R500). -/
def execTStrImm (imm5 : BitVec 5) (rb rd : LowReg) (s : State) : Result :=
  thumbStore .word (immOffset s imm5 rb 2) rd s

/-- LDR, immediate offset (R501). -/
def execTLdrImm (imm5 : BitVec 5) (rb rd : LowReg) (s : State) : Result :=
  let addr := immOffset s imm5 rb 2
  thumbLoad .word addr rd (loadedWord s addr) s

/-- STRB, immediate offset (R502). -/
def execTStrbImm (imm5 : BitVec 5) (rb rd : LowReg) (s : State) : Result :=
  thumbStore .byte (immOffset s imm5 rb 0) rd s

/-- LDRB, immediate offset (R503). -/
def execTLdrbImm (imm5 : BitVec 5) (rb rd : LowReg) (s : State) : Result :=
  let addr := immOffset s imm5 rb 0
  thumbLoad .byte addr rd (readMem s .byte addr) s

/-- STRH, immediate offset (R504). -/
def execTStrhImm (imm5 : BitVec 5) (rb rd : LowReg) (s : State) : Result :=
  thumbHalf (immOffset s imm5 rb 1) (thumbStore .half (immOffset s imm5 rb 1) rd s)

/-- LDRH, immediate offset (R505). -/
def execTLdrhImm (imm5 : BitVec 5) (rb rd : LowReg) (s : State) : Result :=
  let addr := immOffset s imm5 rb 1
  thumbHalf addr (thumbLoad .half addr rd (readMem s .half addr) s)

/-- STR, SP-relative (R506). -/
def execTStrSp (rd : LowReg) (imm8 : BitVec 8) (s : State) : Result :=
  thumbStore .word (spOffset s imm8) rd s

/-- LDR, SP-relative (R507). -/
def execTLdrSp (rd : LowReg) (imm8 : BitVec 8) (s : State) : Result :=
  let addr := spOffset s imm8
  thumbLoad .word addr rd (loadedWord s addr) s

/-- The end of a Thumb store multiple: the base becomes `newBase` once every word is stored. -/
def thumbBlockStore (base : Reg) (start newBase : Word) (words : List Word) (s : State) : Result :=
  (storeList words start s).thenDo fun s' => .next (advance 2 (setReg base newBase s'))

/-- The registers of PUSH: the low ones, then r14 if R is set (R510). -/
def pushRegs (r : Bool) (list : BitVec 8) : List Reg := listedRegs list ++ (if r then [14] else [])

/-- PUSH (R510). -/
def execTPush (r : Bool) (list : BitVec 8) (s : State) : Result :=
  let regs := pushRegs r list
  let start := thumbReg s 13 - BitVec.ofNat 32 (4 * regs.length)
  if regs = [] then .refused .emptyRegisterList
  else thumbBlockStore 13 start start (regs.map (thumbReg s)) s

/-- POP (R511): r15, if listed, is loaded last and may switch state. -/
def execTPop (r : Bool) (list : BitVec 8) (s : State) : Result :=
  let regs := listedRegs list ++ (if r then [15] else [])
  let start := thumbReg s 13
  let n := regs.length
  if regs = [] then .refused .emptyRegisterList
  else (loadList setReg (setReg 13 start) regs start s).thenDo fun s' =>
    let s'' := setReg 13 (start + BitVec.ofNat 32 (4 * n)) s'
    if r then loadPc (readMem s .word (start + BitVec.ofNat 32 (4 * (n - 1)))) s'' else .next (advance 2 s'')

/-- STMIA (R512): a listed base that is not the lowest stores a free value (R343; entry 21). -/
def execTStmia (rb : LowReg) (list : BitVec 8) (s : State) : Result :=
  let regs := listedRegs list
  let start := low s rb
  let words := regs.map fun r =>
    if r == lowReg rb && regs.head? != some (lowReg rb) then Config.storedBase s.tick else thumbReg s r
  if list = 0 then .refused .emptyRegisterList
  else thumbBlockStore (lowReg rb) start (start + BitVec.ofNat 32 (4 * regs.length)) words s

/-- LDMIA (R513): the base may not be listed. -/
def execTLdmia (rb : LowReg) (list : BitVec 8) (s : State) : Result :=
  let regs := listedRegs list
  let start := low s rb
  if list = 0 then .refused .emptyRegisterList
  else if list.getLsbD rb.toNat then .refused .blockTransferForm
  else (loadList setReg (setReg (lowReg rb) start) regs start s).thenDo fun s' =>
    .next (advance 2 (setReg (lowReg rb) (start + BitVec.ofNat 32 (4 * regs.length)) s'))

end Sys2Proof.Machine
end

