-- ==== Sys2Proof/Machine/Unallocated.lean ====
section
/-! DEFINITION. The unallocated words and the architecturally undefined space (spec/30_encoding.md R135, R143, R177). -/

namespace Sys2Proof.Machine

/-- The architecturally undefined space (R143): the undefined instruction trap. -/
def execUndefArm (c : Cond) (_high : BitVec 20) (_low : BitVec 4) (s : State) : Result :=
  whenPassed c s (.next (undefinedTrap 4 s))

/-- An unconditional word of the LDC2/STC2 layout with P = U = W = 0 (R149, U6). -/
def execUnallocUncondCop (_n : Bool) (_rest : BitVec 21) (_s : State) : Result := .refused .unallocated

/-- Any other word with bits 31:28 = 1111 (R135, U6). -/
def execUnallocUncond (_bits : BitVec 28) (_s : State) : Result := .refused .unallocated

/-- The unallocated words of the multiply and swap space (R177, U6). -/
def execUnallocMulSwp (c : Cond) (_op : BitVec 5) (_mid : BitVec 12) (_low : BitVec 4) (s : State) : Result :=
  whenPassed c s (.refused .unallocated)

/-- The unallocated words of the miscellaneous space (R177, U6). -/
def execUnallocMisc (c : Cond) (_op : BitVec 2) (_mid : BitVec 12) (_lo _low : BitVec 4) (s : State) : Result :=
  whenPassed c s (.refused .unallocated)

/-- The unallocated words with bits 27:23 = 00110, 21:20 = 00 (R177, U6). -/
def execUnalloc00110 (c : Cond) (_r : Bool) (_rest : BitVec 20) (s : State) : Result :=
  whenPassed c s (.refused .unallocated)

/-- The coprocessor space with P, U, N, W = 0 (R146, R177, U6). -/
def execUnallocCop (c : Cond) (_rest : BitVec 21) (s : State) : Result :=
  whenPassed c s (.refused .unallocated)

end Sys2Proof.Machine
end

