-- ==== Sys2Proof/Machine/Dispatch.lean ====
section
/-! DEFINITION. Dispatch: one arm per instruction, each one direct call of its meaning. -/

namespace Sys2Proof.Machine

def exec (i : Instr) (s : State) : Host.Outcome State Fault Refusal :=
  match i with
  | .pld ri u rn addrMode => Sys2Proof.Machine.execPld ri u rn addrMode s
  | .blxImm h imm24 => Sys2Proof.Machine.execBlxImm h imm24 s
  | .unallocUncondCop n rest => Sys2Proof.Machine.execUnallocUncondCop n rest s
  | .ldc2 p u n w rn crd cp offset8 => Sys2Proof.Machine.execLdc2 p u n w rn crd cp offset8 s
  | .stc2 p u n w rn crd cp offset8 => Sys2Proof.Machine.execStc2 p u n w rn crd cp offset8 s
  | .cdp2 op1 crn crd cp op2 crm => Sys2Proof.Machine.execCdp2 op1 crn crd cp op2 crm s
  | .mcr2 op1 crn rd cp op2 crm => Sys2Proof.Machine.execMcr2 op1 crn rd cp op2 crm s
  | .mrc2 op1 crn rd cp op2 crm => Sys2Proof.Machine.execMrc2 op1 crn rd cp op2 crm s
  | .unallocUncond bits => Sys2Proof.Machine.execUnallocUncond bits s
  | .nop => Sys2Proof.Machine.execNop s
  | .mul c sf rd sbz rs rm => Sys2Proof.Machine.execMul c sf rd sbz rs rm s
  | .mla c sf rd rn rs rm => Sys2Proof.Machine.execMla c sf rd rn rs rm s
  | .umull c sf rdHi rdLo rs rm => Sys2Proof.Machine.execUmull c sf rdHi rdLo rs rm s
  | .umlal c sf rdHi rdLo rs rm => Sys2Proof.Machine.execUmlal c sf rdHi rdLo rs rm s
  | .smull c sf rdHi rdLo rs rm => Sys2Proof.Machine.execSmull c sf rdHi rdLo rs rm s
  | .smlal c sf rdHi rdLo rs rm => Sys2Proof.Machine.execSmlal c sf rdHi rdLo rs rm s
  | .swp c rn rd sbz rm => Sys2Proof.Machine.execSwp c rn rd sbz rm s
  | .swpb c rn rd sbz rm => Sys2Proof.Machine.execSwpb c rn rd sbz rm s
  | .unallocMulSwp c op mid low => Sys2Proof.Machine.execUnallocMulSwp c op mid low s
  | .strh c u idx rn rd off => Sys2Proof.Machine.execStrh c u idx rn rd off s
  | .ldrd c u idx rn rd off => Sys2Proof.Machine.execLdrd c u idx rn rd off s
  | .strd c u idx rn rd off => Sys2Proof.Machine.execStrd c u idx rn rd off s
  | .ldrh c u idx rn rd off => Sys2Proof.Machine.execLdrh c u idx rn rd off s
  | .ldrsb c u idx rn rd off => Sys2Proof.Machine.execLdrsb c u idx rn rd off s
  | .ldrsh c u idx rn rd off => Sys2Proof.Machine.execLdrsh c u idx rn rd off s
  | .mrs c r sbo rd sbz1 sbz2 => Sys2Proof.Machine.execMrs c r sbo rd sbz1 sbz2 s
  | .msrReg c r mask sbo sbz rm => Sys2Proof.Machine.execMsrReg c r mask sbo sbz rm s
  | .bx c sbo rm => Sys2Proof.Machine.execBx c sbo rm s
  | .blxReg c sbo rm => Sys2Proof.Machine.execBlxReg c sbo rm s
  | .clz c sbo1 rd sbo2 rm => Sys2Proof.Machine.execClz c sbo1 rd sbo2 rm s
  | .qadd c rn rd sbz rm => Sys2Proof.Machine.execQadd c rn rd sbz rm s
  | .qsub c rn rd sbz rm => Sys2Proof.Machine.execQsub c rn rd sbz rm s
  | .qdadd c rn rd sbz rm => Sys2Proof.Machine.execQdadd c rn rd sbz rm s
  | .qdsub c rn rd sbz rm => Sys2Proof.Machine.execQdsub c rn rd sbz rm s
  | .bkpt c immHi immLo => Sys2Proof.Machine.execBkpt c immHi immLo s
  | .smlaXY c rd rn rs y x rm => Sys2Proof.Machine.execSmlaXY c rd rn rs y x rm s
  | .smlawY c rd rn rs y rm => Sys2Proof.Machine.execSmlawY c rd rn rs y rm s
  | .smulwY c rd sbz rs y rm => Sys2Proof.Machine.execSmulwY c rd sbz rs y rm s
  | .smlalXY c rdHi rdLo rs y x rm => Sys2Proof.Machine.execSmlalXY c rdHi rdLo rs y x rm s
  | .smulXY c rd sbz rs y x rm => Sys2Proof.Machine.execSmulXY c rd sbz rs y x rm s
  | .unallocMisc c op mid lo low => Sys2Proof.Machine.execUnallocMisc c op mid lo low s
  | .msrImm c r mask sbo rot imm8 => Sys2Proof.Machine.execMsrImm c r mask sbo rot imm8 s
  | .unalloc00110 c r rest => Sys2Proof.Machine.execUnalloc00110 c r rest s
  | .armAnd c sf rn rd op2 => Sys2Proof.Machine.execArmAnd c sf rn rd op2 s
  | .armEor c sf rn rd op2 => Sys2Proof.Machine.execArmEor c sf rn rd op2 s
  | .armSub c sf rn rd op2 => Sys2Proof.Machine.execArmSub c sf rn rd op2 s
  | .armRsb c sf rn rd op2 => Sys2Proof.Machine.execArmRsb c sf rn rd op2 s
  | .armAdd c sf rn rd op2 => Sys2Proof.Machine.execArmAdd c sf rn rd op2 s
  | .armAdc c sf rn rd op2 => Sys2Proof.Machine.execArmAdc c sf rn rd op2 s
  | .armSbc c sf rn rd op2 => Sys2Proof.Machine.execArmSbc c sf rn rd op2 s
  | .armRsc c sf rn rd op2 => Sys2Proof.Machine.execArmRsc c sf rn rd op2 s
  | .armTst c rn sbz op2 => Sys2Proof.Machine.execArmTst c rn sbz op2 s
  | .armTeq c rn sbz op2 => Sys2Proof.Machine.execArmTeq c rn sbz op2 s
  | .armCmp c rn sbz op2 => Sys2Proof.Machine.execArmCmp c rn sbz op2 s
  | .armCmn c rn sbz op2 => Sys2Proof.Machine.execArmCmn c rn sbz op2 s
  | .armOrr c sf rn rd op2 => Sys2Proof.Machine.execArmOrr c sf rn rd op2 s
  | .armMov c sf sbz rd op2 => Sys2Proof.Machine.execArmMov c sf sbz rd op2 s
  | .armBic c sf rn rd op2 => Sys2Proof.Machine.execArmBic c sf rn rd op2 s
  | .armMvn c sf sbz rd op2 => Sys2Proof.Machine.execArmMvn c sf sbz rd op2 s
  | .undefArm c high low => Sys2Proof.Machine.execUndefArm c high low s
  | .ldrt c u rn rd off => Sys2Proof.Machine.execLdrt c u rn rd off s
  | .ldrbt c u rn rd off => Sys2Proof.Machine.execLdrbt c u rn rd off s
  | .strt c u rn rd off => Sys2Proof.Machine.execStrt c u rn rd off s
  | .strbt c u rn rd off => Sys2Proof.Machine.execStrbt c u rn rd off s
  | .ldr c u idx rn rd off => Sys2Proof.Machine.execLdr c u idx rn rd off s
  | .ldrb c u idx rn rd off => Sys2Proof.Machine.execLdrb c u idx rn rd off s
  | .str c u idx rn rd off => Sys2Proof.Machine.execStr c u idx rn rd off s
  | .strb c u idx rn rd off => Sys2Proof.Machine.execStrb c u idx rn rd off s
  | .ldm1 c mode w rn list => Sys2Proof.Machine.execLdm1 c mode w rn list s
  | .ldm2 c mode w rn list => Sys2Proof.Machine.execLdm2 c mode w rn list s
  | .ldm3 c mode w rn list => Sys2Proof.Machine.execLdm3 c mode w rn list s
  | .stm1 c mode w rn list => Sys2Proof.Machine.execStm1 c mode w rn list s
  | .stm2 c mode w rn list => Sys2Proof.Machine.execStm2 c mode w rn list s
  | .b c imm24 => Sys2Proof.Machine.execB c imm24 s
  | .bl c imm24 => Sys2Proof.Machine.execBl c imm24 s
  | .mcrr c rn rd cp opc crm => Sys2Proof.Machine.execMcrr c rn rd cp opc crm s
  | .mrrc c rn rd cp opc crm => Sys2Proof.Machine.execMrrc c rn rd cp opc crm s
  | .unallocCop c rest => Sys2Proof.Machine.execUnallocCop c rest s
  | .ldc c p u n w rn crd cp offset8 => Sys2Proof.Machine.execLdc c p u n w rn crd cp offset8 s
  | .stc c p u n w rn crd cp offset8 => Sys2Proof.Machine.execStc c p u n w rn crd cp offset8 s
  | .cdp c op1 crn crd cp op2 crm => Sys2Proof.Machine.execCdp c op1 crn crd cp op2 crm s
  | .mcr c op1 crn rd cp op2 crm => Sys2Proof.Machine.execMcr c op1 crn rd cp op2 crm s
  | .mrc c op1 crn rd cp op2 crm => Sys2Proof.Machine.execMrc c op1 crn rd cp op2 crm s
  | .armSwi c imm24 => Sys2Proof.Machine.execArmSwi c imm24 s
  | .tLslImm imm5 rs rd => Sys2Proof.Machine.execTLslImm imm5 rs rd s
  | .tLsrImm imm5 rs rd => Sys2Proof.Machine.execTLsrImm imm5 rs rd s
  | .tAsrImm imm5 rs rd => Sys2Proof.Machine.execTAsrImm imm5 rs rd s
  | .tAddReg rn rs rd => Sys2Proof.Machine.execTAddReg rn rs rd s
  | .tSubReg rn rs rd => Sys2Proof.Machine.execTSubReg rn rs rd s
  | .tAddImm3 imm3 rs rd => Sys2Proof.Machine.execTAddImm3 imm3 rs rd s
  | .tSubImm3 imm3 rs rd => Sys2Proof.Machine.execTSubImm3 imm3 rs rd s
  | .tMovImm rd imm8 => Sys2Proof.Machine.execTMovImm rd imm8 s
  | .tCmpImm rd imm8 => Sys2Proof.Machine.execTCmpImm rd imm8 s
  | .tAddImm8 rd imm8 => Sys2Proof.Machine.execTAddImm8 rd imm8 s
  | .tSubImm8 rd imm8 => Sys2Proof.Machine.execTSubImm8 rd imm8 s
  | .tAnd rs rd => Sys2Proof.Machine.execTAnd rs rd s
  | .tEor rs rd => Sys2Proof.Machine.execTEor rs rd s
  | .tLslReg rs rd => Sys2Proof.Machine.execTLslReg rs rd s
  | .tLsrReg rs rd => Sys2Proof.Machine.execTLsrReg rs rd s
  | .tAsrReg rs rd => Sys2Proof.Machine.execTAsrReg rs rd s
  | .tAdc rs rd => Sys2Proof.Machine.execTAdc rs rd s
  | .tSbc rs rd => Sys2Proof.Machine.execTSbc rs rd s
  | .tRor rs rd => Sys2Proof.Machine.execTRor rs rd s
  | .tTst rs rd => Sys2Proof.Machine.execTTst rs rd s
  | .tNeg rs rd => Sys2Proof.Machine.execTNeg rs rd s
  | .tCmpReg rs rd => Sys2Proof.Machine.execTCmpReg rs rd s
  | .tCmn rs rd => Sys2Proof.Machine.execTCmn rs rd s
  | .tOrr rs rd => Sys2Proof.Machine.execTOrr rs rd s
  | .tMul rs rd => Sys2Proof.Machine.execTMul rs rd s
  | .tBic rs rd => Sys2Proof.Machine.execTBic rs rd s
  | .tMvn rs rd => Sys2Proof.Machine.execTMvn rs rd s
  | .tAddHigh h1 h2 rs rd => Sys2Proof.Machine.execTAddHigh h1 h2 rs rd s
  | .tCmpHigh h1 h2 rs rd => Sys2Proof.Machine.execTCmpHigh h1 h2 rs rd s
  | .tMovHigh h1 h2 rs rd => Sys2Proof.Machine.execTMovHigh h1 h2 rs rd s
  | .tBx rs sbz => Sys2Proof.Machine.execTBx rs sbz s
  | .tBlxReg rs sbz => Sys2Proof.Machine.execTBlxReg rs sbz s
  | .tLdrPc rd imm8 => Sys2Proof.Machine.execTLdrPc rd imm8 s
  | .tStrReg ro rb rd => Sys2Proof.Machine.execTStrReg ro rb rd s
  | .tStrhReg ro rb rd => Sys2Proof.Machine.execTStrhReg ro rb rd s
  | .tStrbReg ro rb rd => Sys2Proof.Machine.execTStrbReg ro rb rd s
  | .tLdrsb ro rb rd => Sys2Proof.Machine.execTLdrsb ro rb rd s
  | .tLdrReg ro rb rd => Sys2Proof.Machine.execTLdrReg ro rb rd s
  | .tLdrhReg ro rb rd => Sys2Proof.Machine.execTLdrhReg ro rb rd s
  | .tLdrbReg ro rb rd => Sys2Proof.Machine.execTLdrbReg ro rb rd s
  | .tLdrsh ro rb rd => Sys2Proof.Machine.execTLdrsh ro rb rd s
  | .tStrImm imm5 rb rd => Sys2Proof.Machine.execTStrImm imm5 rb rd s
  | .tLdrImm imm5 rb rd => Sys2Proof.Machine.execTLdrImm imm5 rb rd s
  | .tStrbImm imm5 rb rd => Sys2Proof.Machine.execTStrbImm imm5 rb rd s
  | .tLdrbImm imm5 rb rd => Sys2Proof.Machine.execTLdrbImm imm5 rb rd s
  | .tStrhImm imm5 rb rd => Sys2Proof.Machine.execTStrhImm imm5 rb rd s
  | .tLdrhImm imm5 rb rd => Sys2Proof.Machine.execTLdrhImm imm5 rb rd s
  | .tStrSp rd imm8 => Sys2Proof.Machine.execTStrSp rd imm8 s
  | .tLdrSp rd imm8 => Sys2Proof.Machine.execTLdrSp rd imm8 s
  | .tAddPc rd imm8 => Sys2Proof.Machine.execTAddPc rd imm8 s
  | .tAddSp rd imm8 => Sys2Proof.Machine.execTAddSp rd imm8 s
  | .tIncSp imm7 => Sys2Proof.Machine.execTIncSp imm7 s
  | .tDecSp imm7 => Sys2Proof.Machine.execTDecSp imm7 s
  | .tPush r list => Sys2Proof.Machine.execTPush r list s
  | .tPop r list => Sys2Proof.Machine.execTPop r list s
  | .tBkpt imm8 => Sys2Proof.Machine.execTBkpt imm8 s
  | .tUndef1011 bits => Sys2Proof.Machine.execTUndef1011 bits s
  | .tStmia rb list => Sys2Proof.Machine.execTStmia rb list s
  | .tLdmia rb list => Sys2Proof.Machine.execTLdmia rb list s
  | .tUndefDE imm8 => Sys2Proof.Machine.execTUndefDE imm8 s
  | .tSwi imm8 => Sys2Proof.Machine.execTSwi imm8 s
  | .tBCond c simm8 => Sys2Proof.Machine.execTBCond c simm8 s
  | .tB simm11 => Sys2Proof.Machine.execTB simm11 s
  | .tBlxLow offset10 => Sys2Proof.Machine.execTBlxLow offset10 s
  | .tUndef11101 bits => Sys2Proof.Machine.execTUndef11101 bits s
  | .tBlHigh offset11 => Sys2Proof.Machine.execTBlHigh offset11 s
  | .tBlLow offset11 => Sys2Proof.Machine.execTBlLow offset11 s

end Sys2Proof.Machine
end

