-- ==== Sys2Proof/Machine/Fetch.lean ====
section
/-! DEFINITION. Fetching an instruction (spec/20_memory.md R88 to R91, R116, R117; 60_exceptions.md R556, R567, R602,
R612). -/

namespace Sys2Proof.Machine

/-- The memory the instruction interface sees (R81, R116; entry 6). -/
def fetchMem (s : State) : List Host.Cell := if s.pins.unifiedMemory then s.mem else s.imem

/-- The length of an instruction: 2 in Thumb state, 4 in ARM state. -/
def fetchLength (s : State) : Nat := if thumb s then 2 else 4

/-- The fetch of the instruction at the PC (R90). -/
def fetchAccess (s : State) : Access where
  fetch := true
  addr := s.pc
  size := if thumb s then .half else .word
  write := false
  priv := privileged s
  mode := mode s
  locked := false

/-- The instruction at the PC, decoded. -/
def fetchInstr (s : State) : Instr :=
  decode (codeOfBytes (thumb s) s.pins.bigEndian (memGetBytes (fetchMem s) s.pc.toNat (fetchLength s)))

/-- The word on the instruction bus of a fetch from an address: a 32-bit memory returns the whole word (R91). -/
def busAt (s : State) (addr : Word) : Word :=
  BitVec.ofNat 32 (assemble s.pins.bigEndian (memGetBytes (fetchMem s) (Size.align .word addr).toNat 4))

/-- The word on the instruction bus of the fetch at the PC. -/
def instrBus (s : State) : Word := busAt s s.pc

/-- How the fetch of the instruction about to execute ends: an abort, which comes before a breakpoint (R604, R607); a
breakpoint or caught vector, a Prefetch Abort in monitor mode and debug state in halt mode; or it executes. -/
def fetchAnswer (s : State) : AccessAnswer :=
  if platformAborts s (fetchAccess s) then .abort
  else match debugMatch s (fetchAccess s) (instrBus s) with
    | .hit => if s.dbg.monitorMode then .debugAbort else .debugState
    | .unsupported => .unsupported
    | .none =>
      if vectorCaught s then (if s.dbg.monitorMode then .debugAbort else .debugState) else .ok

/-! The CHAINOUT latch of watchpoint unit 1 and the fetches (10_state.md R71, R75; entry 46). -/

/-- The fetch of the `k`-th instruction from the PC on leaves the CHAINOUT latch as it is, made or not: unit 1 does not
select it, or the data field comparison answers what the latch holds. An aborted fetch brings no word that the spec names. -/
def fetchAgrees (s : State) (k : Nat) : Bool :=
  let a := { fetchAccess s with addr := s.pc + BitVec.ofNat 32 (k * fetchLength s) }
  !unit1Selects s a || (!platformAborts s a && s.dbg.wp1.dataMatches (busAt s a.addr) == s.chainOut)

/-- The latch after those of the fetches `ks` that the core has made: nothing says which (20_memory.md R117), so where one
of them would change the latch it becomes a free value. -/
def maybeFetched (ks : List Nat) (s : State) : State :=
  { s with chainOut := if ks.all (fetchAgrees s) then s.chainOut else Config.chainOut s.tick 0 }

/-- The latch after the fetch at the PC, which takes the data field comparison where unit 1 selects it (R71). -/
def latchFetch (s : State) : State :=
  { s with chainOut := latchAfter s (fetchAccess s) (s.dbg.wp1.dataMatches (instrBus s)) }

/-- The latch as an instruction that executes finds it: after its own fetch, and maybe four ahead. -/
def fetched (s : State) : State := maybeFetched [1, 2, 3, 4] (latchFetch s)

/-- The latch where something comes before the instruction at the PC, whose fetch may have been made. -/
def prefetched (s : State) : State := maybeFetched [0, 1, 2, 3, 4] s

/-- A byte of the instruction at the PC was changed by a write after it may have been fetched (R117; entry 19). -/
def staleInstr (s : State) : Bool :=
  (List.range (fetchLength s)).any fun k => s.stale.contains (s.pc + BitVec.ofNat 32 k)

end Sys2Proof.Machine
end

