-- ==== Sys2Proof/Machine/Hazard.lean ====
section
/-! DEFINITION. Which registers an instruction names, for the hazard after a User-bank LDM or STM
(spec/44_arm_load_store_multiple.md R346, R351; entry 23). -/

namespace Sys2Proof.Machine

/-- The registers of `<Oprnd2>`. -/
def operand2Regs : Operand2 → List Reg
  | .imm _ _ => []
  | .shiftImm _ _ rm => [rm]
  | .shiftReg rs _ rm => [rs, rm]

/-- The general registers an instruction reads or writes, other than by taking an exception. -/
def namedRegs : Instr → List Reg
  | .pld i _ rn addrMode => [rn] ++ (if i then [fld 0 4 addrMode] else [])
  | .blxImm _ _ => [14]
  | .unallocUncondCop _ _ => []
  | .ldc2 _ _ _ _ rn _ _ _ => [rn]
  | .stc2 _ _ _ _ rn _ _ _ => [rn]
  | .cdp2 _ _ _ _ _ _ => []
  | .mcr2 _ _ rd _ _ _ => [rd]
  | .mrc2 _ _ rd _ _ _ => [rd]
  | .unallocUncond _ => []
  | .nop => []
  | .mul _ _ rd _ rs rm => [rd, rs, rm]
  | .mla _ _ rd rn rs rm => [rd, rn, rs, rm]
  | .umull _ _ rdHi rdLo rs rm => [rdHi, rdLo, rs, rm]
  | .umlal _ _ rdHi rdLo rs rm => [rdHi, rdLo, rs, rm]
  | .smull _ _ rdHi rdLo rs rm => [rdHi, rdLo, rs, rm]
  | .smlal _ _ rdHi rdLo rs rm => [rdHi, rdLo, rs, rm]
  | .swp _ rn rd _ rm => [rn, rd, rm]
  | .swpb _ rn rd _ rm => [rn, rd, rm]
  | .unallocMulSwp _ _ _ _ => []
  | .strh _ _ _ rn rd off => [rn, rd] ++ (offset3Reg off).toList
  | .ldrd _ _ _ rn rd off => [rn, rd, (rd + 1)] ++ (offset3Reg off).toList
  | .strd _ _ _ rn rd off => [rn, rd, (rd + 1)] ++ (offset3Reg off).toList
  | .ldrh _ _ _ rn rd off => [rn, rd] ++ (offset3Reg off).toList
  | .ldrsb _ _ _ rn rd off => [rn, rd] ++ (offset3Reg off).toList
  | .ldrsh _ _ _ rn rd off => [rn, rd] ++ (offset3Reg off).toList
  | .mrs _ _ _ rd _ _ => [rd]
  | .msrReg _ _ _ _ _ rm => [rm]
  | .bx _ _ rm => [rm]
  | .blxReg _ _ rm => [rm, 14]
  | .clz _ _ rd _ rm => [rd, rm]
  | .qadd _ rn rd _ rm => [rn, rd, rm]
  | .qsub _ rn rd _ rm => [rn, rd, rm]
  | .qdadd _ rn rd _ rm => [rn, rd, rm]
  | .qdsub _ rn rd _ rm => [rn, rd, rm]
  | .bkpt _ _ _ => []
  | .smlaXY _ rd rn rs _ _ rm => [rd, rn, rs, rm]
  | .smlawY _ rd rn rs _ rm => [rd, rn, rs, rm]
  | .smulwY _ rd _ rs _ rm => [rd, rs, rm]
  | .smlalXY _ rdHi rdLo rs _ _ rm => [rdHi, rdLo, rs, rm]
  | .smulXY _ rd _ rs _ _ rm => [rd, rs, rm]
  | .unallocMisc _ _ _ _ _ => []
  | .msrImm _ _ _ _ _ _ => []
  | .unalloc00110 _ _ _ => []
  | .armAnd _ _ rn rd op2 => [rn, rd] ++ operand2Regs op2
  | .armEor _ _ rn rd op2 => [rn, rd] ++ operand2Regs op2
  | .armSub _ _ rn rd op2 => [rn, rd] ++ operand2Regs op2
  | .armRsb _ _ rn rd op2 => [rn, rd] ++ operand2Regs op2
  | .armAdd _ _ rn rd op2 => [rn, rd] ++ operand2Regs op2
  | .armAdc _ _ rn rd op2 => [rn, rd] ++ operand2Regs op2
  | .armSbc _ _ rn rd op2 => [rn, rd] ++ operand2Regs op2
  | .armRsc _ _ rn rd op2 => [rn, rd] ++ operand2Regs op2
  | .armTst _ rn _ op2 => [rn] ++ operand2Regs op2
  | .armTeq _ rn _ op2 => [rn] ++ operand2Regs op2
  | .armCmp _ rn _ op2 => [rn] ++ operand2Regs op2
  | .armCmn _ rn _ op2 => [rn] ++ operand2Regs op2
  | .armOrr _ _ rn rd op2 => [rn, rd] ++ operand2Regs op2
  | .armMov _ _ _ rd op2 => [rd] ++ operand2Regs op2
  | .armBic _ _ rn rd op2 => [rn, rd] ++ operand2Regs op2
  | .armMvn _ _ _ rd op2 => [rd] ++ operand2Regs op2
  | .undefArm _ _ _ => []
  | .ldrt _ _ rn rd off => [rn, rd] ++ (offset2Reg off).toList
  | .ldrbt _ _ rn rd off => [rn, rd] ++ (offset2Reg off).toList
  | .strt _ _ rn rd off => [rn, rd] ++ (offset2Reg off).toList
  | .strbt _ _ rn rd off => [rn, rd] ++ (offset2Reg off).toList
  | .ldr _ _ _ rn rd off => [rn, rd] ++ (offset2Reg off).toList
  | .ldrb _ _ _ rn rd off => [rn, rd] ++ (offset2Reg off).toList
  | .str _ _ _ rn rd off => [rn, rd] ++ (offset2Reg off).toList
  | .strb _ _ _ rn rd off => [rn, rd] ++ (offset2Reg off).toList
  | .ldm1 _ _ _ rn list => [rn] ++ listedRegs list
  | .ldm2 _ _ _ rn list => [rn] ++ listedRegs list
  | .ldm3 _ _ _ rn list => [rn] ++ listedRegs list
  | .stm1 _ _ _ rn list => [rn] ++ listedRegs list
  | .stm2 _ _ _ rn list => [rn] ++ listedRegs list
  | .b _ _ => []
  | .bl _ _ => [14]
  | .mcrr _ rn rd _ _ _ => [rn, rd]
  | .mrrc _ rn rd _ _ _ => [rn, rd]
  | .unallocCop _ _ => []
  | .ldc _ _ _ _ _ rn _ _ _ => [rn]
  | .stc _ _ _ _ _ rn _ _ _ => [rn]
  | .cdp _ _ _ _ _ _ _ => []
  | .mcr _ _ _ rd _ _ _ => [rd]
  | .mrc _ _ _ rd _ _ _ => [rd]
  | .armSwi _ _ => []
  | .tLslImm _ _ _ => []
  | .tLsrImm _ _ _ => []
  | .tAsrImm _ _ _ => []
  | .tAddReg _ _ _ => []
  | .tSubReg _ _ _ => []
  | .tAddImm3 _ _ _ => []
  | .tSubImm3 _ _ _ => []
  | .tMovImm _ _ => []
  | .tCmpImm _ _ => []
  | .tAddImm8 _ _ => []
  | .tSubImm8 _ _ => []
  | .tAnd _ _ => []
  | .tEor _ _ => []
  | .tLslReg _ _ => []
  | .tLsrReg _ _ => []
  | .tAsrReg _ _ => []
  | .tAdc _ _ => []
  | .tSbc _ _ => []
  | .tRor _ _ => []
  | .tTst _ _ => []
  | .tNeg _ _ => []
  | .tCmpReg _ _ => []
  | .tCmn _ _ => []
  | .tOrr _ _ => []
  | .tMul _ _ => []
  | .tBic _ _ => []
  | .tMvn _ _ => []
  | .tAddHigh h1 h2 rs rd => [highReg h1 rd, highReg h2 rs]
  | .tCmpHigh h1 h2 rs rd => [highReg h1 rd, highReg h2 rs]
  | .tMovHigh h1 h2 rs rd => [highReg h1 rd, highReg h2 rs]
  | .tBx rs _ => [rs]
  | .tBlxReg rs _ => [rs, 14]
  | .tLdrPc _ _ => []
  | .tStrReg _ _ _ => []
  | .tStrhReg _ _ _ => []
  | .tStrbReg _ _ _ => []
  | .tLdrsb _ _ _ => []
  | .tLdrReg _ _ _ => []
  | .tLdrhReg _ _ _ => []
  | .tLdrbReg _ _ _ => []
  | .tLdrsh _ _ _ => []
  | .tStrImm _ _ _ => []
  | .tLdrImm _ _ _ => []
  | .tStrbImm _ _ _ => []
  | .tLdrbImm _ _ _ => []
  | .tStrhImm _ _ _ => []
  | .tLdrhImm _ _ _ => []
  | .tStrSp _ _ => [13]
  | .tLdrSp _ _ => [13]
  | .tAddPc _ _ => []
  | .tAddSp _ _ => [13]
  | .tIncSp _ => [13]
  | .tDecSp _ => [13]
  | .tPush r list => [13] ++ listedRegs list ++ (if r then [14] else [])
  | .tPop _ list => [13] ++ listedRegs list
  | .tBkpt _ => []
  | .tUndef1011 _ => []
  | .tStmia _ list => listedRegs list
  | .tLdmia _ list => listedRegs list
  | .tUndefDE _ => []
  | .tSwi _ => []
  | .tBCond _ _ => []
  | .tB _ => []
  | .tBlxLow _ => [14]
  | .tUndef11101 _ => []
  | .tBlHigh _ => [14]
  | .tBlLow _ => [14]

/-- The instruction reads or writes the SPSR of the current mode, other than by taking an exception. -/
def namesSpsr : Instr → Bool
  | .pld _ _ _ _ => false
  | .blxImm _ _ => false
  | .unallocUncondCop _ _ => false
  | .ldc2 _ _ _ _ _ _ _ _ => false
  | .stc2 _ _ _ _ _ _ _ _ => false
  | .cdp2 _ _ _ _ _ _ => false
  | .mcr2 _ _ _ _ _ _ => false
  | .mrc2 _ _ _ _ _ _ => false
  | .unallocUncond _ => false
  | .nop => false
  | .mul _ _ _ _ _ _ => false
  | .mla _ _ _ _ _ _ => false
  | .umull _ _ _ _ _ _ => false
  | .umlal _ _ _ _ _ _ => false
  | .smull _ _ _ _ _ _ => false
  | .smlal _ _ _ _ _ _ => false
  | .swp _ _ _ _ _ => false
  | .swpb _ _ _ _ _ => false
  | .unallocMulSwp _ _ _ _ => false
  | .strh _ _ _ _ _ _ => false
  | .ldrd _ _ _ _ _ _ => false
  | .strd _ _ _ _ _ _ => false
  | .ldrh _ _ _ _ _ _ => false
  | .ldrsb _ _ _ _ _ _ => false
  | .ldrsh _ _ _ _ _ _ => false
  | .mrs _ r _ _ _ _ => r
  | .msrReg _ r _ _ _ _ => r
  | .bx _ _ _ => false
  | .blxReg _ _ _ => false
  | .clz _ _ _ _ _ => false
  | .qadd _ _ _ _ _ => false
  | .qsub _ _ _ _ _ => false
  | .qdadd _ _ _ _ _ => false
  | .qdsub _ _ _ _ _ => false
  | .bkpt _ _ _ => false
  | .smlaXY _ _ _ _ _ _ _ => false
  | .smlawY _ _ _ _ _ _ => false
  | .smulwY _ _ _ _ _ _ => false
  | .smlalXY _ _ _ _ _ _ _ => false
  | .smulXY _ _ _ _ _ _ _ => false
  | .unallocMisc _ _ _ _ _ => false
  | .msrImm _ r _ _ _ _ => r
  | .unalloc00110 _ _ _ => false
  | .armAnd _ sf _ rd _ => sf && rd == 15
  | .armEor _ sf _ rd _ => sf && rd == 15
  | .armSub _ sf _ rd _ => sf && rd == 15
  | .armRsb _ sf _ rd _ => sf && rd == 15
  | .armAdd _ sf _ rd _ => sf && rd == 15
  | .armAdc _ sf _ rd _ => sf && rd == 15
  | .armSbc _ sf _ rd _ => sf && rd == 15
  | .armRsc _ sf _ rd _ => sf && rd == 15
  | .armTst _ _ _ _ => false
  | .armTeq _ _ _ _ => false
  | .armCmp _ _ _ _ => false
  | .armCmn _ _ _ _ => false
  | .armOrr _ sf _ rd _ => sf && rd == 15
  | .armMov _ sf _ rd _ => sf && rd == 15
  | .armBic _ sf _ rd _ => sf && rd == 15
  | .armMvn _ sf _ rd _ => sf && rd == 15
  | .undefArm _ _ _ => false
  | .ldrt _ _ _ _ _ => false
  | .ldrbt _ _ _ _ _ => false
  | .strt _ _ _ _ _ => false
  | .strbt _ _ _ _ _ => false
  | .ldr _ _ _ _ _ _ => false
  | .ldrb _ _ _ _ _ _ => false
  | .str _ _ _ _ _ _ => false
  | .strb _ _ _ _ _ _ => false
  | .ldm1 _ _ _ _ _ => false
  | .ldm2 _ _ _ _ _ => false
  | .ldm3 _ _ _ _ _ => true
  | .stm1 _ _ _ _ _ => false
  | .stm2 _ _ _ _ _ => false
  | .b _ _ => false
  | .bl _ _ => false
  | .mcrr _ _ _ _ _ _ => false
  | .mrrc _ _ _ _ _ _ => false
  | .unallocCop _ _ => false
  | .ldc _ _ _ _ _ _ _ _ _ => false
  | .stc _ _ _ _ _ _ _ _ _ => false
  | .cdp _ _ _ _ _ _ _ => false
  | .mcr _ _ _ _ _ _ _ => false
  | .mrc _ _ _ _ _ _ _ => false
  | .armSwi _ _ => false
  | .tLslImm _ _ _ => false
  | .tLsrImm _ _ _ => false
  | .tAsrImm _ _ _ => false
  | .tAddReg _ _ _ => false
  | .tSubReg _ _ _ => false
  | .tAddImm3 _ _ _ => false
  | .tSubImm3 _ _ _ => false
  | .tMovImm _ _ => false
  | .tCmpImm _ _ => false
  | .tAddImm8 _ _ => false
  | .tSubImm8 _ _ => false
  | .tAnd _ _ => false
  | .tEor _ _ => false
  | .tLslReg _ _ => false
  | .tLsrReg _ _ => false
  | .tAsrReg _ _ => false
  | .tAdc _ _ => false
  | .tSbc _ _ => false
  | .tRor _ _ => false
  | .tTst _ _ => false
  | .tNeg _ _ => false
  | .tCmpReg _ _ => false
  | .tCmn _ _ => false
  | .tOrr _ _ => false
  | .tMul _ _ => false
  | .tBic _ _ => false
  | .tMvn _ _ => false
  | .tAddHigh _ _ _ _ => false
  | .tCmpHigh _ _ _ _ => false
  | .tMovHigh _ _ _ _ => false
  | .tBx _ _ => false
  | .tBlxReg _ _ => false
  | .tLdrPc _ _ => false
  | .tStrReg _ _ _ => false
  | .tStrhReg _ _ _ => false
  | .tStrbReg _ _ _ => false
  | .tLdrsb _ _ _ => false
  | .tLdrReg _ _ _ => false
  | .tLdrhReg _ _ _ => false
  | .tLdrbReg _ _ _ => false
  | .tLdrsh _ _ _ => false
  | .tStrImm _ _ _ => false
  | .tLdrImm _ _ _ => false
  | .tStrbImm _ _ _ => false
  | .tLdrbImm _ _ _ => false
  | .tStrhImm _ _ _ => false
  | .tLdrhImm _ _ _ => false
  | .tStrSp _ _ => false
  | .tLdrSp _ _ => false
  | .tAddPc _ _ => false
  | .tAddSp _ _ => false
  | .tIncSp _ => false
  | .tDecSp _ => false
  | .tPush _ _ => false
  | .tPop _ _ => false
  | .tBkpt _ => false
  | .tUndef1011 _ => false
  | .tStmia _ _ => false
  | .tLdmia _ _ => false
  | .tUndefDE _ => false
  | .tSwi _ => false
  | .tBCond _ _ => false
  | .tB _ => false
  | .tBlxLow _ => false
  | .tUndef11101 _ => false
  | .tBlHigh _ => false
  | .tBlLow _ => false

/-- The condition of an instruction; AL for one that has none. -/
def condOf : Instr → Cond
  | .pld _ _ _ _ => .al
  | .blxImm _ _ => .al
  | .unallocUncondCop _ _ => .al
  | .ldc2 _ _ _ _ _ _ _ _ => .al
  | .stc2 _ _ _ _ _ _ _ _ => .al
  | .cdp2 _ _ _ _ _ _ => .al
  | .mcr2 _ _ _ _ _ _ => .al
  | .mrc2 _ _ _ _ _ _ => .al
  | .unallocUncond _ => .al
  | .nop => .al
  | .mul c _ _ _ _ _ => c
  | .mla c _ _ _ _ _ => c
  | .umull c _ _ _ _ _ => c
  | .umlal c _ _ _ _ _ => c
  | .smull c _ _ _ _ _ => c
  | .smlal c _ _ _ _ _ => c
  | .swp c _ _ _ _ => c
  | .swpb c _ _ _ _ => c
  | .unallocMulSwp c _ _ _ => c
  | .strh c _ _ _ _ _ => c
  | .ldrd c _ _ _ _ _ => c
  | .strd c _ _ _ _ _ => c
  | .ldrh c _ _ _ _ _ => c
  | .ldrsb c _ _ _ _ _ => c
  | .ldrsh c _ _ _ _ _ => c
  | .mrs c _ _ _ _ _ => c
  | .msrReg c _ _ _ _ _ => c
  | .bx c _ _ => c
  | .blxReg c _ _ => c
  | .clz c _ _ _ _ => c
  | .qadd c _ _ _ _ => c
  | .qsub c _ _ _ _ => c
  | .qdadd c _ _ _ _ => c
  | .qdsub c _ _ _ _ => c
  | .bkpt c _ _ => c
  | .smlaXY c _ _ _ _ _ _ => c
  | .smlawY c _ _ _ _ _ => c
  | .smulwY c _ _ _ _ _ => c
  | .smlalXY c _ _ _ _ _ _ => c
  | .smulXY c _ _ _ _ _ _ => c
  | .unallocMisc c _ _ _ _ => c
  | .msrImm c _ _ _ _ _ => c
  | .unalloc00110 c _ _ => c
  | .armAnd c _ _ _ _ => c
  | .armEor c _ _ _ _ => c
  | .armSub c _ _ _ _ => c
  | .armRsb c _ _ _ _ => c
  | .armAdd c _ _ _ _ => c
  | .armAdc c _ _ _ _ => c
  | .armSbc c _ _ _ _ => c
  | .armRsc c _ _ _ _ => c
  | .armTst c _ _ _ => c
  | .armTeq c _ _ _ => c
  | .armCmp c _ _ _ => c
  | .armCmn c _ _ _ => c
  | .armOrr c _ _ _ _ => c
  | .armMov c _ _ _ _ => c
  | .armBic c _ _ _ _ => c
  | .armMvn c _ _ _ _ => c
  | .undefArm c _ _ => c
  | .ldrt c _ _ _ _ => c
  | .ldrbt c _ _ _ _ => c
  | .strt c _ _ _ _ => c
  | .strbt c _ _ _ _ => c
  | .ldr c _ _ _ _ _ => c
  | .ldrb c _ _ _ _ _ => c
  | .str c _ _ _ _ _ => c
  | .strb c _ _ _ _ _ => c
  | .ldm1 c _ _ _ _ => c
  | .ldm2 c _ _ _ _ => c
  | .ldm3 c _ _ _ _ => c
  | .stm1 c _ _ _ _ => c
  | .stm2 c _ _ _ _ => c
  | .b c _ => c
  | .bl c _ => c
  | .mcrr c _ _ _ _ _ => c
  | .mrrc c _ _ _ _ _ => c
  | .unallocCop c _ => c
  | .ldc c _ _ _ _ _ _ _ _ => c
  | .stc c _ _ _ _ _ _ _ _ => c
  | .cdp c _ _ _ _ _ _ => c
  | .mcr c _ _ _ _ _ _ => c
  | .mrc c _ _ _ _ _ _ => c
  | .armSwi c _ => c
  | .tLslImm _ _ _ => .al
  | .tLsrImm _ _ _ => .al
  | .tAsrImm _ _ _ => .al
  | .tAddReg _ _ _ => .al
  | .tSubReg _ _ _ => .al
  | .tAddImm3 _ _ _ => .al
  | .tSubImm3 _ _ _ => .al
  | .tMovImm _ _ => .al
  | .tCmpImm _ _ => .al
  | .tAddImm8 _ _ => .al
  | .tSubImm8 _ _ => .al
  | .tAnd _ _ => .al
  | .tEor _ _ => .al
  | .tLslReg _ _ => .al
  | .tLsrReg _ _ => .al
  | .tAsrReg _ _ => .al
  | .tAdc _ _ => .al
  | .tSbc _ _ => .al
  | .tRor _ _ => .al
  | .tTst _ _ => .al
  | .tNeg _ _ => .al
  | .tCmpReg _ _ => .al
  | .tCmn _ _ => .al
  | .tOrr _ _ => .al
  | .tMul _ _ => .al
  | .tBic _ _ => .al
  | .tMvn _ _ => .al
  | .tAddHigh _ _ _ _ => .al
  | .tCmpHigh _ _ _ _ => .al
  | .tMovHigh _ _ _ _ => .al
  | .tBx _ _ => .al
  | .tBlxReg _ _ => .al
  | .tLdrPc _ _ => .al
  | .tStrReg _ _ _ => .al
  | .tStrhReg _ _ _ => .al
  | .tStrbReg _ _ _ => .al
  | .tLdrsb _ _ _ => .al
  | .tLdrReg _ _ _ => .al
  | .tLdrhReg _ _ _ => .al
  | .tLdrbReg _ _ _ => .al
  | .tLdrsh _ _ _ => .al
  | .tStrImm _ _ _ => .al
  | .tLdrImm _ _ _ => .al
  | .tStrbImm _ _ _ => .al
  | .tLdrbImm _ _ _ => .al
  | .tStrhImm _ _ _ => .al
  | .tLdrhImm _ _ _ => .al
  | .tStrSp _ _ => .al
  | .tLdrSp _ _ => .al
  | .tAddPc _ _ => .al
  | .tAddSp _ _ => .al
  | .tIncSp _ => .al
  | .tDecSp _ => .al
  | .tPush _ _ => .al
  | .tPop _ _ => .al
  | .tBkpt _ => .al
  | .tUndef1011 _ => .al
  | .tStmia _ _ => .al
  | .tLdmia _ _ => .al
  | .tUndefDE _ => .al
  | .tSwi _ => .al
  | .tBCond c _ => c
  | .tB _ => .al
  | .tBlxLow _ => .al
  | .tUndef11101 _ => .al
  | .tBlHigh _ => .al
  | .tBlLow _ => .al

/-- r8 to r14. -/
def bankedReg (r : Reg) : Bool := decide (8 ≤ r.toNat ∧ r.toNat ≤ 14)

/-- The instruction executes and names a banked register or the SPSR. -/
def touchesBanked (s : State) (i : Instr) : Bool :=
  condPassed (condOf i) s.cpsr && ((namedRegs i).any bankedReg || namesSpsr i)

end Sys2Proof.Machine
end

