-- ==== Sys2Proof/Machine/Boundary.lean ====
section
/-! DEFINITION. The instruction boundary: what comes before the instruction at the PC, and running it
(spec/60_exceptions.md R556, R620). -/

namespace Sys2Proof.Machine

/-- The coprocessor number of an ARM coprocessor instruction (46_arm_coprocessor.md R397). -/
def copNumber (i : Instr) : Option (BitVec 4) :=
  let w := encodeArm i
  if !i.isThumb && (fld 25 3 w == 0b110#3 || fld 24 4 w == 0b1110#4) then some (fld 8 4 w) else none

/-- The instruction only waits in this step: it executes, and its coprocessor answers WAIT (46_arm_coprocessor.md R394). -/
def busyWaits (s : State) (i : Instr) : Bool :=
  match copNumber i with
  | none => false
  | some cp => condPassed (condOf i) s.cpsr && cp != 14 && (copAnswer s cp == .wait)

/-- Run one instruction. Straight after a User-bank LDM or STM it may name no banked register
(44_arm_load_store_multiple.md R346, R351; entry 23); an instruction that busy-waits has changed nothing, so that this
still holds of it when it is tried again (46_arm_coprocessor.md R394). -/
def runInstr (i : Instr) (s : State) : Result :=
  if s.userBankHazard && touchesBanked s i then .refused .userBankHazard
  else exec i { s with userBankHazard := s.userBankHazard && busyWaits s i, vectorEntered := none }

/-- Fetch and execute the instruction at the PC (R620, steps 5 to 7). Its fetch is compared with the CHAINOUT latch as it was
before (entry 46). An instruction that busy-waits is fetched again at each step, so that an abort or a breakpoint that comes
up meanwhile is taken from it (DESIGN CHOICE, entry 58). No fetch is ignored: that is the fate of writes. -/
def fetchAndRun (s : State) : Result :=
  match fetchAnswer s with
  | .abort => .next (prefetchAbort (prefetched s))
  | .debugAbort => .next (setDbgAbt true (prefetchAbort (fetched s)))
  | .debugState => .fault .debugState
  | .unsupported => .refused .debugUnsupported
  | .ok => if staleInstr s then .refused .stalePrefetch else runInstr (fetchInstr s) (fetched s)
  | .ignored => if staleInstr s then .refused .stalePrefetch else runInstr (fetchInstr s) (fetched s)

/-- FIQ and IRQ reach the core: INTDIS does not inhibit them, which it can with `DBGEN` HIGH only (60_exceptions.md
R611; 65_debug_interface.md R717). -/
def interruptsReach (s : State) : Bool := !(s.pins.dbgEn && s.dbg.intDis)

/-- The instruction boundary (R556, R610, R611, R620): a debug request, FIQ, IRQ, else the next instruction. The boundary
between two WAIT answers of a coprocessor is one too, for a debug request as for an interrupt (DESIGN CHOICE, entry 57). -/
def boundary (s : State) : Result :=
  if !legalMode (mode s) then .fault .unrecoverableMode
  else if s.pcWrapped then .refused .sequentialWrap
  else if s.pins.dbgEn && (s.lines.edbgrq || s.dbg.request) then .fault .debugState
  else if !s.lines.nFIQ && !psrF s.cpsr && interruptsReach s then .next (takeFiq (prefetched s))
  else if !s.lines.nIRQ && !psrI s.cpsr && interruptsReach s then .next (takeIrq (prefetched s))
  else fetchAndRun s

end Sys2Proof.Machine
end

