-- ==== Sys2Proof/Machine/Tap.lean ====
section
/-! DEFINITION. The registers a debugger reaches through the TAP: the EmbeddedICE-RT register map, scan chain 2 and the
TAP instructions (spec/10_state.md R62 to R73; 65_debug_interface.md R704 to R709; entries 31, 45 to 49). -/

namespace Sys2Proof.Machine

/-- Write one register of a watchpoint unit, by the low three bits of its address (10_state.md R66). Bit 3 of the
control mask cannot be set (R70). The last two of the eight addresses are not described and write nothing (DESIGN
CHOICE, entry 47). -/
def Watchpoint.write (w : Watchpoint) (reg : BitVec 3) (v : Word) : Watchpoint :=
  if reg = 0 then { w with addrValue := v }
  else if reg = 1 then { w with addrMask := v }
  else if reg = 2 then { w with dataValue := v }
  else if reg = 3 then { w with dataMask := v }
  else if reg = 4 then { w with ctlValue := fld 0 9 v }
  else if reg = 5 then { w with ctlMask := fld 0 8 v &&& 0b11110111 }
  else w

/-- Read one register of a watchpoint unit; none at the two addresses that are not described. -/
def Watchpoint.read (w : Watchpoint) (reg : BitVec 3) : Option Word :=
  if reg = 0 then some w.addrValue
  else if reg = 1 then some w.addrMask
  else if reg = 2 then some w.dataValue
  else if reg = 3 then some w.dataMask
  else if reg = 4 then some (zext w.ctlValue)
  else if reg = 5 then some (zext w.ctlMask)
  else none

/-- A debugger's write to an EmbeddedICE-RT register (10_state.md R63, R66): writing the comms data sets R, writing the
comms control clears R, the debug status is read-only. A write to an address that R66 does not describe (00011, 00110,
00111, 01110, 01111, 10110 to 11111) changes no register (DESIGN CHOICE, entry 47). Bit 3 of the control register, the
single-step bit, is stored and does nothing outside debug state or in monitor mode, where it must not be set (R67,
60_exceptions.md R605, R613; DESIGN CHOICE, entry 54). -/
def DebugUnit.write (d : DebugUnit) (addr : BitVec 5) (v : Word) : DebugUnit :=
  if addr = 0b00000 then { d with control := fld 0 6 v }
  else if addr = 0b00010 then { d with vectorCatch := fld 0 8 v }
  else if addr = 0b00100 then { d with commsR := false }
  else if addr = 0b00101 then { d with commsRead := v, commsR := true }
  else if fld 3 2 addr = 0b01#2 then { d with wp0 := d.wp0.write (fld 0 3 addr) v }
  else if fld 3 2 addr = 0b10#2 then { d with wp1 := d.wp1.write (fld 0 3 addr) v }
  else d

/-- What a debugger's read changes: reading the comms data clears W (10_state.md R63). -/
def DebugUnit.read (d : DebugUnit) (addr : BitVec 5) : DebugUnit :=
  if addr = 0b00101 then { d with commsW := false } else d

/-- The debug status register (10_state.md R68), a view of other state: bit 4 ITBIT, 3 SYSCOMP, 2 IFEN, 1 DBGRQ, 0
DBGACK, each as it reads outside debug state (entry 48). -/
def debugStatus (s : State) : BitVec 5 :=
  push (push (push (push (push 0 (bit (thumb s))) (bit (Config.sysComp s.tick)))
    (bit (!(s.pins.dbgEn && s.dbg.intDis)))) (bit s.lines.edbgrq)) (bit (s.pins.dbgEn && flag 0 s.dbg.control))

/-- What a debugger reads at an address of R66. The comms data is the write register of the processor (R63, R64); a
register narrower than 32 bits lies in the low bits (65_debug_interface.md R709), but the comms control register is read as
`MRC` reads it, its six bits at 31:28, 1 and 0 (90_conflicts.md C15; DESIGN CHOICE, entry 55); an address that is not
described gives a free value (entry 47). -/
def debugRegister (s : State) (addr : BitVec 5) : Word :=
  let other := Config.undescribedRegister s.tick
  if addr = 0b00000 then zext s.dbg.control
  else if addr = 0b00001 then zext (debugStatus s)
  else if addr = 0b00010 then zext s.dbg.vectorCatch
  else if addr = 0b00100 then commsControl s
  else if addr = 0b00101 then s.dbg.commsWrite
  else if fld 3 2 addr = 0b01#2 then (s.dbg.wp0.read (fld 0 3 addr)).getD other
  else if fld 3 2 addr = 0b10#2 then (s.dbg.wp1.read (fld 0 3 addr)).getD other
  else other

/-- UPDATE-DR of scan chain 2 (65_debug_interface.md R709): bit 37 is write, bits 36:32 the address; a read leaves the
register's value in the serial register for the next scan. Any access releases the comparators (10_state.md R67), and
writing unit 1's control value clears the CHAINOUT latch (R71). -/
def scan2 (bits : BitVec 38) (s : State) : State :=
  let addr := fld 32 5 bits
  let d := { s.dbg with held := false }
  if flag 37 bits then
    { s with dbg := { d.write addr (fld 0 32 bits) with chain2 := bits }, chainOut := s.chainOut && addr != 0b10100 }
  else { s with dbg := { d.read addr with chain2 := fld 32 6 bits ++ debugRegister s addr } }

/-- UPDATE-IR (65_debug_interface.md R704, R705): EXTEST with scan chain 1 or 2 is UNPREDICTABLE, and INTEST with chain 1
puts the cells around the core in test mode, which is halt-mode debug: no answer. -/
def loadTap (code : BitVec 4) (s : State) : Option State :=
  if (code = 0b0000 ∧ (s.dbg.scanChain = 1 ∨ s.dbg.scanChain = 2)) ∨ (code = 0b1100 ∧ s.dbg.scanChain = 1) then none
  else some { s with dbg := { s.dbg with tapInstruction := code } }

/-- The instruction register as CAPTURE-IR loads it, whatever instruction is selected: what the next instruction scan shifts
out, lowest bit first, before UPDATE-IR loads the new one (65_debug_interface.md R704). -/
def tapInstructionOut : BitVec 4 := 0b0001

/-- What the next scan of the selected data register shifts out, lowest bit first (65_debug_interface.md R705, R706,
R709): the capture value of scan path select, `TAPID` for IDCODE, what the last access left in scan chain 2, 0 for the
bypass register; none for a boundary scan register, which lies outside the macrocell. -/
def tapOut (s : State) : Option (BitVec 38) :=
  if s.dbg.tapInstruction = 0b0010 then some 0b10000
  else if s.dbg.tapInstruction = 0b1110 then some (s.pins.tapId.setWidth 38)
  else if s.dbg.tapInstruction = 0b1100 then if s.dbg.scanChain = 2 then some s.dbg.chain2 else none
  else if s.dbg.tapInstruction = 0b0000 ∨ s.dbg.tapInstruction = 0b0011 then none
  else some 0

/-- UPDATE-DR (65_debug_interface.md R705 to R707): SCAN_N selects a scan chain; INTEST with chain 2 reaches the
EmbeddedICE-RT registers. Every other register changes nothing the model holds; so does INTEST or EXTEST with a chain
that R707 calls reserved (0, 4 to 15), of which the spec says no more (DESIGN CHOICE, entry 49). -/
def tapData (bits : BitVec 38) (s : State) : State :=
  if s.dbg.tapInstruction = 0b0010 then { s with dbg := { s.dbg with scanChain := fld 0 5 bits } }
  else if s.dbg.tapInstruction = 0b1100 ∧ s.dbg.scanChain = 2 then scan2 bits s
  else s

end Sys2Proof.Machine
end

