-- ==== Sys2Proof/Machine/Inputs.lean ====
section
/-! DEFINITION. What happens outside the core between two instructions (spec/00_scope.md R17; entries 14 to 17, 31). -/

namespace Sys2Proof.Machine

/-- Replace the port of a coprocessor number, or attach it. -/
def attachPort (port : CopPort) (ports : List CopPort) : List CopPort :=
  port :: ports.filter (fun p => p.num != port.num)

/-- A byte changed in the memory that instructions are fetched from makes a prefetched instruction stale (entry 19). -/
def staleByte (addr : Word) (v : Byte) (s : State) : List Word :=
  if memGet (fetchMem s) addr.toNat != v && decide ((addr - s.pc).toNat < 5 * fetchLength s) then s.stale ++ [addr]
  else s.stale

/-- The memory system changes a byte that the data interface sees, and the instruction interface where it is unified. -/
def changeByte (addr : Word) (v : Byte) (s : State) : State :=
  { s with
    mem := memPut s.mem addr.toNat v
    stale := if s.pins.unifiedMemory then staleByte addr v s else s.stale }

/-- The memory system changes a byte of the instruction memory of a split system (20_memory.md R81; entry 6). -/
def changeInstructionByte (addr : Word) (v : Byte) (s : State) : State :=
  { s with
    imem := memPut s.imem addr.toNat v
    stale := if s.pins.unifiedMemory then s.stale else staleByte addr v s }

/-- `old` with the bytes of `new` at the addresses that `take` picks. -/
def mixMem (take : Nat → Bool) (old new : List Host.Cell) : List Host.Cell :=
  (old ++ new).foldl (fun m c => if take c.1 then memPut m c.1 (memGet new c.1) else m) old

/-- What an instruction that would have answered `t` has done outside the registers when a reset abandons it in `s`
(70_reset_and_hazards.md R630, R636): any of its bytes may be written, and its transfer to a coprocessor or a debug
register made or not, as the free values say (entry 17). -/
def abandoned (s t : State) : State :=
  let moved := Config.resetTransferred s.tick
  { s with
    mem := mixMem (Config.resetWrote s.tick) s.mem t.mem
    dbg := if moved then t.dbg else s.dbg
    chainOut := if moved then t.chainOut else s.chainOut
    cops := if moved then t.cops else s.cops }

/-- `nRESET` during the run (60_exceptions.md R562): the instruction at the PC, if one is executing, is abandoned. One
that the model gives no next state has done nothing (entry 17). -/
def resetDuringRun (s : State) : State :=
  match boundary s with
  | .next t => resetMachine (abandoned s t)
  | .fault _ => resetMachine s
  | .refused _ => resetMachine s

/-- One input event. -/
def applyEvent (e : InputEvent) (s : State) : Result :=
  match e with
  | .reset => .next (resetDuringRun s)
  | .nFIQ high => .next { s with lines := { s.lines with nFIQ := high } }
  | .nIRQ high => .next { s with lines := { s.lines with nIRQ := high } }
  | .edbgrq high => .next { s with lines := { s.lines with edbgrq := high } }
  | .dbgExt levels => .next { s with lines := { s.lines with dbgExt := levels } }
  | .debugReset => .next { s with dbg := .pulsed s.tick, chainOut := false }
  | .tapInstruction code =>
    match loadTap code s with
    | some s' => .next s'
    | none => .refused .scanChain
  | .tapData bits => .next (tapData bits s)
  | .memoryByte addr value => .next (changeByte addr value s)
  | .instructionByte addr value => .next (changeInstructionByte addr value s)
  | .accessRules rules => .next { s with accessRules := rules }
  | .coprocessor port => .next { s with cops := attachPort port s.cops }

/-- A batch of input events, in order. -/
def applyEvents : List InputEvent → State → Result
  | [], s => .next s
  | e :: es, s =>
    match applyEvent e s with
    | .next s' => applyEvents es s'
    | .fault r => .fault r
    | .refused r => .refused r

/-- What comes before the boundary: the next batch of inputs, as the step counter advances. -/
def takeInputs (s : State) : Result :=
  applyEvents (s.inputs.headD []) { s with inputs := s.inputs.tail, tick := s.tick + 1 }

end Sys2Proof.Machine
end

