-- ==== Sys2Proof/Machine/Step.lean ====
section
/-! DEFINITION. One step of the machine (spec/60_exceptions.md R556, R620). -/

namespace Sys2Proof.Machine

/-- One step: the inputs that come before it, then the boundary. -/
def step (s : State) : Host.Outcome State Fault Refusal :=
  match takeInputs s with
  | .next s' => boundary s'
  | .fault r => .fault r
  | .refused r => .refused r

/-- `s` with an instruction stored where the next step fetches: 16 bits are a Thumb halfword, 32 an ARM word. The state
bit, the alignment of the PC, and what could come before the fetch (inputs, pending interrupts, hazards) are set so that
the next step runs it. -/
def State.withFetchWord (s : State) (nbits w : Nat) : State :=
  let t := decide (nbits ≤ 16)
  let size : Size := if t then .half else .word
  let pc := size.align s.pc
  let bytes := laneBytes s.pins.bigEndian size (BitVec.ofNat 32 w)
  { s with
    pc := pc
    cpsr := setBit s.cpsr 5 t
    mem := if s.pins.unifiedMemory then memPutBytes s.mem pc.toNat bytes else s.mem
    imem := if s.pins.unifiedMemory then s.imem else memPutBytes s.imem pc.toNat bytes
    lines := .reset
    inputs := []
    stale := []
    pcWrapped := false
    userBankHazard := false }

end Sys2Proof.Machine
end

