-- ==== Sys2Proof/WellFormed.lean ====
section
/-! DEFINITION. The instructions whose fields stay inside their own row of spec/opcode_table.json: a word belongs to
the first row that matches (30_encoding.md R150), so a later row's fields may not spell an earlier row. -/

namespace Sys2Proof

/-- Bits 27:0 of an unconditional word that no other row takes (R149): not PLD, not BLX, not the coprocessor rows. -/
def unallocUncondOk (bits : BitVec 28) : Bool :=
  !(fld 26 2 bits == 0b01#2 && flag 24 bits && fld 20 3 bits == 0b101#3 && fld 12 4 bits == 0b1111#4) &&
    fld 25 3 bits != 0b101#3 && fld 25 3 bits != 0b110#3 && fld 24 4 bits != 0b1110#4

/-- Bits 24:20 of a word of the multiply and swap space that no multiply or swap takes (R139, R140). -/
def unallocMulSwpOk (op : BitVec 5) : Bool :=
  fld 1 4 op != 0b0000#4 && fld 1 4 op != 0b0001#4 && fld 1 4 op != 0b0100#4 && fld 1 4 op != 0b0101#4 &&
    fld 1 4 op != 0b0110#4 && fld 1 4 op != 0b0111#4 && op != 0b10000#5 && op != 0b10100#5

/-- Bits 22:21 and 7:4 of a word of the miscellaneous space that no other row takes (R138). -/
def unallocMiscOk (op : BitVec 2) (lo : BitVec 4) : Bool :=
  lo != 0b0000#4 && lo != 0b0101#4 && !flag 3 lo &&
    !(op == 0b01#2 && (lo == 0b0001#4 || lo == 0b0011#4 || lo == 0b0111#4)) && !(op == 0b11#2 && lo == 0b0001#4)

/-- Bits 11:0 of a Thumb halfword 1011 that no other row takes (R168). -/
def tUndef1011Ok (bits : BitVec 12) : Bool :=
  !(fld 9 3 bits == 0b000#3 && !flag 8 bits) && fld 9 3 bits != 0b010#3 && fld 9 3 bits != 0b110#3 &&
    !(fld 9 3 bits == 0b111#3 && !flag 8 bits)

/-- Mode 2 with P = 0, W = 1 belongs to the T rows (43_arm_load_store.md R292). -/
def mode2IndexOk (idx : Index) : Bool := idx != .postWriteback

/-- P = U = W = 0 is no LDC or STC form (30_encoding.md R146, R149). -/
def mode5Ok (p u w : Bool) : Bool := p || u || w

/-- The one word of the `MSR` immediate row that is the no-operation word (30_encoding.md R141). -/
def msrImmOk (c : Cond) (r : Bool) (mask sbo rot : BitVec 4) (imm8 : BitVec 8) : Bool :=
  !(c == .al && !r && mask == 0 && sbo == 15 && rot == 0 && imm8 == 0)

/-- An instruction whose encoding is its own row's. -/
def WellFormed : Instr → Bool
  | .pld .. => true
  | .blxImm .. => true
  | .unallocUncondCop .. => true
  | .ldc2 p u _ w _ _ _ _ => mode5Ok p u w
  | .stc2 p u _ w _ _ _ _ => mode5Ok p u w
  | .cdp2 .. => true
  | .mcr2 .. => true
  | .mrc2 .. => true
  | .unallocUncond bits => unallocUncondOk bits
  | .nop => true
  | .mul .. => true
  | .mla .. => true
  | .umull .. => true
  | .umlal .. => true
  | .smull .. => true
  | .smlal .. => true
  | .swp .. => true
  | .swpb .. => true
  | .unallocMulSwp _ op _ _ => unallocMulSwpOk op
  | .strh .. => true
  | .ldrd .. => true
  | .strd .. => true
  | .ldrh .. => true
  | .ldrsb .. => true
  | .ldrsh .. => true
  | .mrs .. => true
  | .msrReg .. => true
  | .bx .. => true
  | .blxReg .. => true
  | .clz .. => true
  | .qadd .. => true
  | .qsub .. => true
  | .qdadd .. => true
  | .qdsub .. => true
  | .bkpt .. => true
  | .smlaXY .. => true
  | .smlawY .. => true
  | .smulwY .. => true
  | .smlalXY .. => true
  | .smulXY .. => true
  | .unallocMisc _ op _ lo _ => unallocMiscOk op lo
  | .msrImm c r mask sbo rot imm8 => msrImmOk c r mask sbo rot imm8
  | .unalloc00110 .. => true
  | .armAnd .. => true
  | .armEor .. => true
  | .armSub .. => true
  | .armRsb .. => true
  | .armAdd .. => true
  | .armAdc .. => true
  | .armSbc .. => true
  | .armRsc .. => true
  | .armTst .. => true
  | .armTeq .. => true
  | .armCmp .. => true
  | .armCmn .. => true
  | .armOrr .. => true
  | .armMov .. => true
  | .armBic .. => true
  | .armMvn .. => true
  | .undefArm .. => true
  | .ldrt .. => true
  | .ldrbt .. => true
  | .strt .. => true
  | .strbt .. => true
  | .ldr _ _ idx _ _ _ => mode2IndexOk idx
  | .ldrb _ _ idx _ _ _ => mode2IndexOk idx
  | .str _ _ idx _ _ _ => mode2IndexOk idx
  | .strb _ _ idx _ _ _ => mode2IndexOk idx
  | .ldm1 .. => true
  | .ldm2 .. => true
  | .ldm3 .. => true
  | .stm1 .. => true
  | .stm2 .. => true
  | .b .. => true
  | .bl .. => true
  | .mcrr .. => true
  | .mrrc .. => true
  | .unallocCop .. => true
  | .ldc _ p u _ w _ _ _ _ => mode5Ok p u w
  | .stc _ p u _ w _ _ _ _ => mode5Ok p u w
  | .cdp .. => true
  | .mcr .. => true
  | .mrc .. => true
  | .armSwi .. => true
  | .tLslImm .. => true
  | .tLsrImm .. => true
  | .tAsrImm .. => true
  | .tAddReg .. => true
  | .tSubReg .. => true
  | .tAddImm3 .. => true
  | .tSubImm3 .. => true
  | .tMovImm .. => true
  | .tCmpImm .. => true
  | .tAddImm8 .. => true
  | .tSubImm8 .. => true
  | .tAnd .. => true
  | .tEor .. => true
  | .tLslReg .. => true
  | .tLsrReg .. => true
  | .tAsrReg .. => true
  | .tAdc .. => true
  | .tSbc .. => true
  | .tRor .. => true
  | .tTst .. => true
  | .tNeg .. => true
  | .tCmpReg .. => true
  | .tCmn .. => true
  | .tOrr .. => true
  | .tMul .. => true
  | .tBic .. => true
  | .tMvn .. => true
  | .tAddHigh .. => true
  | .tCmpHigh .. => true
  | .tMovHigh .. => true
  | .tBx .. => true
  | .tBlxReg .. => true
  | .tLdrPc .. => true
  | .tStrReg .. => true
  | .tStrhReg .. => true
  | .tStrbReg .. => true
  | .tLdrsb .. => true
  | .tLdrReg .. => true
  | .tLdrhReg .. => true
  | .tLdrbReg .. => true
  | .tLdrsh .. => true
  | .tStrImm .. => true
  | .tLdrImm .. => true
  | .tStrbImm .. => true
  | .tLdrbImm .. => true
  | .tStrhImm .. => true
  | .tLdrhImm .. => true
  | .tStrSp .. => true
  | .tLdrSp .. => true
  | .tAddPc .. => true
  | .tAddSp .. => true
  | .tIncSp .. => true
  | .tDecSp .. => true
  | .tPush .. => true
  | .tPop .. => true
  | .tBkpt .. => true
  | .tUndef1011 bits => tUndef1011Ok bits
  | .tStmia .. => true
  | .tLdmia .. => true
  | .tUndefDE .. => true
  | .tSwi .. => true
  | .tBCond c _ => c != .al
  | .tB .. => true
  | .tBlxLow .. => true
  | .tUndef11101 .. => true
  | .tBlHigh .. => true
  | .tBlLow .. => true

end Sys2Proof
end

