-- ==== Sys2Proof/Safety.lean ====
section
/-! DEFINITION. The words that statements about the machine use: what a safe run is, the invariant, what an instruction
keeps and what it completes with. -/

namespace Sys2Proof.Machine

/-- A run of `k` steps that meets no fault and no refusal. -/
def SafeRun (k : Nat) (s : State) : Prop := ∃ t, Host.Core.run Sys2Proof.core k s = .next t

/-- The PC is aligned for the state: a multiple of 4 in ARM state, of 2 in Thumb state (spec/10_state.md R40). -/
def PcAligned (s : State) : Prop := if thumb s then fld 0 1 s.pc = 0#1 else fld 0 2 s.pc = 0#2

/-- What every step keeps: both memories in canonical form, the PC aligned for the state bit, bit 3 of the watchpoint
control masks clear (10_state.md R70), one port for a coprocessor number. -/
structure Inv (s : State) : Prop where
  mem : Memory.wf s.mem = true
  imem : Memory.wf s.imem = true
  pc : PcAligned s
  mask0 : flag 3 s.dbg.wp0.ctlMask = false
  mask1 : flag 3 s.dbg.wp1.ctlMask = false
  ports : (s.cops.map CopPort.num).Nodup

/-- The instruction answers a next state, and that state is as `P` says. -/
def Completes (r : Result) (P : State → Prop) : Prop := ∃ t, r = .next t ∧ P t

/-- Every general register of every bank is as before, but for those listed (each a mode's register). -/
def RegsKept (s t : State) (except : List (ModeBits × Reg)) : Prop :=
  ∀ m n, n ≠ 15 → (∀ p ∈ except, bankIndex m n ≠ bankIndex p.1 p.2) → regAt t m n = regAt s m n

/-- Every byte of both memories is as before. -/
def MemKept (s t : State) : Prop :=
  (∀ a, memGet t.mem a = memGet s.mem a) ∧ (∀ a, memGet t.imem a = memGet s.imem a)

/-- Every byte is as before but the `z.bytes` bytes at the aligned address of an access. -/
def MemKeptOutside (s t : State) (z : Size) (addr : Word) : Prop :=
  (∀ a, a < (z.align addr).toNat ∨ (z.align addr).toNat + z.bytes ≤ a → memGet t.mem a = memGet s.mem a) ∧
    (∀ a, memGet t.imem a = memGet s.imem a)

/-- Every byte is as before but those of `n` words from an address on. -/
def MemKeptOutsideWords (s t : State) (start : Word) (n : Nat) : Prop :=
  (∀ a, (∀ k, k < n → a < (Size.align .word (start + BitVec.ofNat 32 (4 * k))).toNat ∨
      (Size.align .word (start + BitVec.ofNat 32 (4 * k))).toNat + 4 ≤ a) → memGet t.mem a = memGet s.mem a) ∧
    (∀ a, memGet t.imem a = memGet s.imem a)

/-- The five SPSRs are as before. -/
structure SpsrsKept (s t : State) : Prop where
  fiq : t.spsrFiq = s.spsrFiq
  irq : t.spsrIrq = s.spsrIrq
  svc : t.spsrSvc = s.spsrSvc
  abt : t.spsrAbt = s.spsrAbt
  und : t.spsrUnd = s.spsrUnd

/-- The pins, the lines, the platform and the inputs are as before. -/
structure OutsideKept (s t : State) : Prop where
  pins : t.pins = s.pins
  lines : t.lines = s.lines
  accessRules : t.accessRules = s.accessRules
  inputs : t.inputs = s.inputs
  tick : t.tick = s.tick

/-- The CHAINOUT latch is as before, unless the comparators are on and unit 1 watches data accesses, which write it
(10_state.md R71). -/
def LatchKept (s t : State) : Prop :=
  (comparatorsOn s && flag 3 s.dbg.wp1.ctlValue) = false → t.chainOut = s.chainOut

/-- Everything but the general registers, the CPSR, the PC and memory is as before. -/
structure SpecialsKept (s t : State) : Prop where
  spsrs : SpsrsKept s t
  outside : OutsideKept s t
  dbg : t.dbg = s.dbg
  latch : LatchKept s t
  cops : t.cops = s.cops
  hazard : t.userBankHazard = s.userBankHazard
  entered : t.vectorEntered = s.vectorEntered

/-- `t` is `s` after an instruction of length `len` that writes `v` to register `rd` of the current mode and `flags` to
the CPSR, and nothing else. -/
structure WritesReg (s : State) (len : Word) (rd : Reg) (v flags : Word) (t : State) : Prop where
  result : regAt t (mode s) rd = v
  others : RegsKept s t [(mode s, rd)]
  cpsr : t.cpsr = flags
  pc : t.pc = s.pc + len
  specials : SpecialsKept s t
  latch : t.chainOut = s.chainOut
  memory : MemKept s t

/-- As `WritesReg`, for a pair of registers. -/
structure WritesPair (s : State) (len : Word) (hi lo : Reg) (vhi vlo flags : Word) (t : State) : Prop where
  high : regAt t (mode s) hi = vhi
  low : regAt t (mode s) lo = vlo
  others : RegsKept s t [(mode s, hi), (mode s, lo)]
  cpsr : t.cpsr = flags
  pc : t.pc = s.pc + len
  specials : SpecialsKept s t
  latch : t.chainOut = s.chainOut
  memory : MemKept s t

/-- `t` is `s` after an instruction that writes only the CPSR. -/
structure WritesFlags (s : State) (len : Word) (flags : Word) (t : State) : Prop where
  regs : RegsKept s t []
  cpsr : t.cpsr = flags
  pc : t.pc = s.pc + len
  specials : SpecialsKept s t
  latch : t.chainOut = s.chainOut
  memory : MemKept s t

/-- `t` is `s` after a branch to `target` that leaves the CPSR as `flags`; `link` is what it writes to r14, if it does. -/
structure Branches (s : State) (target flags : Word) (link : Option Word) (t : State) : Prop where
  pc : t.pc = target
  cpsr : t.cpsr = flags
  linked : ∀ v, link = some v → regAt t (mode s) 14 = v
  others : RegsKept s t (if link.isSome then [(mode s, 14)] else [])
  specials : SpecialsKept s t
  latch : t.chainOut = s.chainOut
  memory : MemKept s t
  refilled : t.stale = []

/-- `t` is `s` after a load of `v` to `rd`, with the base `rn` written back if `base` says so. -/
structure Loads (s : State) (len : Word) (rd : Reg) (v : Word) (rn : Reg) (base : Option Word) (t : State) : Prop where
  result : regAt t (mode s) rd = v
  written : ∀ b, base = some b → regAt t (mode s) rn = b
  others : RegsKept s t ((mode s, rd) :: if base.isSome then [(mode s, rn)] else [])
  cpsr : t.cpsr = s.cpsr
  pc : t.pc = s.pc + len
  specials : SpecialsKept s t
  memory : MemKept s t

/-- `t` is `s` after a store of the low bytes of `v` at `addr`, with the base `rn` written back if `base` says so. -/
structure Stores (s : State) (len : Word) (z : Size) (addr v : Word) (rn : Reg) (base : Option Word) (t : State) :
    Prop where
  stored : memGetBytes t.mem (z.align addr).toNat z.bytes = laneBytes s.pins.bigEndian z v
  memory : MemKeptOutside s t z addr
  written : ∀ b, base = some b → regAt t (mode s) rn = b
  others : RegsKept s t (if base.isSome then [(mode s, rn)] else [])
  cpsr : t.cpsr = s.cpsr
  pc : t.pc = s.pc + len
  specials : SpecialsKept s t

/-- `t` is `s` after a store that the memory system ignores, with the base `rn` written back if `base` says so. -/
structure IgnoresStore (s : State) (len : Word) (rn : Reg) (base : Option Word) (t : State) : Prop where
  written : ∀ b, base = some b → regAt t (mode s) rn = b
  others : RegsKept s t (if base.isSome then [(mode s, rn)] else [])
  cpsr : t.cpsr = s.cpsr
  pc : t.pc = s.pc + len
  specials : SpecialsKept s t
  memory : MemKept s t

/-- The words of `words` lie in memory at ascending word addresses from `start`, and no other byte has changed. -/
structure StoredWords (s t : State) (words : List Word) (start : Word) : Prop where
  stored : ∀ k (h : k < words.length),
    memGetBytes t.mem (Size.align .word (start + BitVec.ofNat 32 (4 * k))).toNat 4 =
      laneBytes s.pins.bigEndian .word words[k]
  memory : MemKeptOutsideWords s t start words.length

/-- `t` is `s` after a load to the PC: it is at `target`, the CPSR is `flags`, and the base `rn` is written back if `base`
says so. -/
structure LoadsPc (s : State) (target flags : Word) (rn : Reg) (base : Option Word) (t : State) : Prop where
  pc : t.pc = target
  cpsr : t.cpsr = flags
  written : ∀ b, base = some b → regAt t (mode s) rn = b
  others : RegsKept s t (if base.isSome then [(mode s, rn)] else [])
  specials : SpecialsKept s t
  memory : MemKept s t
  refilled : t.stale = []

/-- `t` is `s` after a load of the registers `regs` of mode `m` from ascending words at `start`, with the base `rn` of the
current mode written back if `base` says so, the PC at `target`, the CPSR `flags` and the User-bank hazard `hz`. -/
structure LoadsMany (s : State) (m : ModeBits) (regs : List Reg) (start : Word) (rn : Reg) (base : Option Word)
    (target flags : Word) (hz : Bool) (t : State) : Prop where
  loaded : ∀ k (h : k < regs.length), regAt t m regs[k] = readMem s .word (start + BitVec.ofNat 32 (4 * k))
  written : ∀ b, base = some b → regAt t (mode s) rn = b
  others : RegsKept s t (regs.map (fun r => (m, r)) ++ if base.isSome then [(mode s, rn)] else [])
  cpsr : t.cpsr = flags
  pc : t.pc = target
  hazard : t.userBankHazard = hz
  spsrs : SpsrsKept s t
  outside : OutsideKept s t
  dbg : t.dbg = s.dbg
  latch : LatchKept s t
  cops : t.cops = s.cops
  memory : MemKept s t

/-- `t` is `s` after a store of `words` at ascending words from `start` by an instruction of length `len`, with the base
`rn` written back if `base` says so and the User-bank hazard `hz`. -/
structure StoresMany (s : State) (len : Word) (words : List Word) (start : Word) (rn : Reg) (base : Option Word)
    (hz : Bool) (t : State) : Prop where
  words : StoredWords s t words start
  written : ∀ b, base = some b → regAt t (mode s) rn = b
  others : RegsKept s t (if base.isSome then [(mode s, rn)] else [])
  cpsr : t.cpsr = s.cpsr
  pc : t.pc = s.pc + len
  hazard : t.userBankHazard = hz
  spsrs : SpsrsKept s t
  outside : OutsideKept s t
  dbg : t.dbg = s.dbg
  latch : LatchKept s t
  cops : t.cops = s.cops

/-- The base that an index mode writes back, if it writes one (spec/43_arm_load_store.md R292). -/
def Index.newBase (idx : Index) (base offset : Word) (u : Bool) : Option Word :=
  if Index.writesBase idx then some (if u then base + offset else base - offset) else none

/-- `s` as the debug logic sees it after `k` word loads from `start` on: only the CHAINOUT latch may differ. -/
def loadsSeen : State → Word → Nat → State
  | s, _, 0 => s
  | s, start, k + 1 => loadsSeen (latched (dataAccess s false .word false false start) 0 s) (start + 4) k

/-- The same after stores of `words` from `start` on. -/
def storesSeen : State → List Word → Word → State
  | s, [], _ => s
  | s, v :: words, start => storesSeen (latched (dataAccess s false .word true false start) v s) words (start + 4)

/-- `n` word loads from `start` on are all answered without an abort or a debug event. -/
def LoadsAnswered (s : State) (start : Word) (n : Nat) : Prop :=
  ∀ k, k < n →
    dataAnswer (loadsSeen s start k) (dataAccess s false .word false false (start + BitVec.ofNat 32 (4 * k))) 0 = .ok

/-- The stores of `words` from `start` on are all performed, without an abort or a debug event. -/
def StoresAnswered (s : State) (words : List Word) (start : Word) : Prop :=
  ∀ k (h : k < words.length), dataAnswer (storesSeen s (words.take k) start)
    (dataAccess s false .word true false (start + BitVec.ofNat 32 (4 * k))) words[k] = .ok

/-- `t` is `s` after entering exception `e` with link value `link` (spec/60_exceptions.md R555, R560). -/
structure Enters (s : State) (e : Exception) (link : Word) (t : State) : Prop where
  linked : regAt t e.entryMode 14 = link
  saved : spsrAt t e.entryMode = some s.cpsr
  cpsr : t.cpsr = entryCpsr e s.cpsr
  pc : t.pc = vectorBase s + e.offset
  regs : RegsKept s t [(e.entryMode, 14)]
  spsrs : ∀ m, m ≠ e.entryMode → spsrAt t m = spsrAt s m
  memory : MemKept s t
  outside : OutsideKept s t
  dbg : t.dbg = s.dbg
  latch : LatchKept s t
  cops : t.cops = s.cops

/-- `t` is `s` after a Data Abort taken by an instruction that may have written the registers `written` before it, and leaves
the debug registers `dbg` and the coprocessors `cops`; of memory nothing is said (R568 to R570). -/
structure AbortsData (s : State) (written : List (ModeBits × Reg)) (dbg : DebugUnit) (cops : List CopPort) (t : State) :
    Prop where
  linked : regAt t modeAbt 14 = s.pc + 8
  saved : t.spsrAbt = s.cpsr
  cpsr : t.cpsr = entryCpsr .dataAbort s.cpsr
  pc : t.pc = vectorBase s + 0x10
  regs : RegsKept s t ((modeAbt, 14) :: written)
  spsrs : ∀ m, m ≠ modeAbt → spsrAt t m = spsrAt s m
  outside : OutsideKept s t
  dbg : t.dbg = dbg
  latch : LatchKept s t
  cops : t.cops = cops

end Sys2Proof.Machine
end

