-- ==== Sys2Proof/Certificates/Slice0/Obligations.lean ====
section
/-! DEFINITION. The statements for the provers. -/

open Sys2Proof Sys2Proof.Machine

/-! Encoding (spec/30_encoding.md). -/

/-- Decoding the word of a well-formed ARM instruction gives the instruction back, at every value of its operands. -/
def Obligations.ArmDecodeInvertsEncode : Prop :=
  ∀ i : Instr, i.isThumb = false → WellFormed i = true → decode (encode i) = i

/-- Decoding the halfword of a well-formed Thumb instruction gives the instruction back. -/
def Obligations.ThumbDecodeInvertsEncode : Prop :=
  ∀ i : Instr, i.isThumb = true → WellFormed i = true → decode (encode i) = i

/-- Every 32-bit word decodes to a well-formed ARM instruction, and every halfword to a well-formed Thumb instruction, whose
encoding is that word: no bit is dropped and every word has one meaning (R150). -/
def Obligations.EveryWordEncodesBack : Prop :=
  (∀ w : Word, (decodeArm w).isThumb = false ∧ WellFormed (decodeArm w) = true ∧ encodeArm (decodeArm w) = w) ∧
  (∀ h : Half, (decodeThumb h).isThumb = true ∧ WellFormed (decodeThumb h) = true ∧ encodeThumb (decodeThumb h) = h)

/-- Words the instruction rules give as examples decode to the instruction they stand for. -/
def Obligations.ExampleWordsDecode : Prop :=
  decodeTableWord 32 0xE0000291 = some (.mul .al false 0 0 2 1) ∧
  decodeTableWord 32 0xE0203291 = some (.mla .al false 0 3 2 1) ∧
  decodeTableWord 32 0xE16F0F11 = some (.clz .al 15 0 15 1) ∧
  decodeTableWord 32 0xE10F0000 = some (.mrs .al false 15 0 0 0) ∧
  decodeTableWord 32 0xE8FD800F = some (.ldm3 .al .ia true 13 0x000F) ∧
  decodeTableWord 32 0xE8C06000 = some (.stm2 .al .ia false 0 0x6000) ∧
  decodeTableWord 32 0xE320F000 = some .nop ∧
  decodeTableWord 16 0x4770 = some (.tBx 14 0) ∧
  decodeTableWord 16 0xDF07 = some (.tSwi 7)

/-! The machine: reset, the invariant, one step. -/

/-- Reset: Supervisor mode, I and F set, ARM state, the PC at the reset vector (spec/10_state.md R57): right after power-on,
and after `nRESET` during a run (60_exceptions.md R562; 70_reset_and_hazards.md R630, R636), which leaves every byte, and the
debug registers, the CHAINOUT latch and the coprocessors, as they were or as the abandoned instruction would have left
them, and the pins, lines and other inputs as they were; the other registers and PSR bits are the free values of log
entry 17. -/
def Obligations.ResetEntersSupervisorAtTheVector : Prop :=
  let entered := fun s : State => psrM s.cpsr = 0b10011 ∧ psrI s.cpsr = true ∧ psrF s.cpsr = true ∧
    psrT s.cpsr = false ∧ s.pc = (if s.pins.hiVecs then 0xFFFF0000 else 0)
  let same := fun s t : State => t.dbg = s.dbg ∧ t.chainOut = s.chainOut ∧ t.cops = s.cops
  entered State.reset ∧
  ∀ s : State, Completes (applyEvent .reset s) fun t =>
    entered t ∧ t.pins = s.pins ∧ t.lines = s.lines ∧ t.accessRules = s.accessRules ∧ t.inputs = s.inputs ∧
    t.imem = s.imem ∧
    ((∀ u, boundary s ≠ .next u) → t.mem = s.mem ∧ same s t) ∧
    (∀ u, boundary s = .next u → (same s t ∨ same u t) ∧
      (Memory.wf s.mem = true → Memory.wf u.mem = true →
        ∀ a, memGet t.mem a = memGet s.mem a ∨ memGet t.mem a = memGet u.mem a))

/-- The invariant holds right after reset. -/
def Obligations.InvariantHoldsAtReset : Prop := Inv State.reset

/-- Every step from every state that meets the invariant gives a state that meets it. -/
def Obligations.StepKeepsInvariant : Prop := ∀ s t : State, Inv s → step s = .next t → Inv t

/-- When nothing comes before the instruction at the PC (spec/60_exceptions.md R620) (no debug request, no interrupt
that is asserted, enabled and not inhibited by INTDIS, R611), a step is `exec` of the instruction that the bytes at the
PC decode to, in the state after the inputs, with the marker of the last exception entry cleared and the CHAINOUT latch
as the fetches leave it (`fetched`, 10_state.md R71; log entry 46). Straight after a user-bank transfer an instruction
that names a banked register is refused; another one runs with that mark cleared, but kept while it only busy-waits for
its coprocessor (log entries 23, 39). First which instructions those are (44_arm_load_store_multiple.md R346, R351): those
whose condition passes and that name one of r8 to r14 as an operand, a listed register, a link register or the stack
pointer, or that read or write the SPSR. -/
def Obligations.StepRunsTheDecodedInstruction : Prop :=
  (∀ (i : Instr) (s : State),
    let shifted : Operand2 → List Reg := fun
      | .imm _ _ => []
      | .shiftImm _ _ rm => [rm]
      | .shiftReg rs _ rm => [rs, rm]
    let regs : Instr → List Reg := fun
      | .pld i _ rn addrMode => [rn] ++ (if i then [fld 0 4 addrMode] else [])
      | .blxImm _ _ | .bl _ _ | .tBlxLow _ | .tBlHigh _ | .tBlLow _ => [14]
      | .ldc2 _ _ _ _ rn _ _ _ | .stc2 _ _ _ _ rn _ _ _ | .ldc _ _ _ _ _ rn _ _ _
        | .stc _ _ _ _ _ rn _ _ _ => [rn]
      | .mcr2 _ _ rd _ _ _ | .mrc2 _ _ rd _ _ _ | .mcr _ _ _ rd _ _ _ | .mrc _ _ _ rd _ _ _
        | .mrs _ _ _ rd _ _ => [rd]
      | .mul _ _ rd _ rs rm | .smulwY _ rd _ rs _ rm | .smulXY _ rd _ rs _ _ rm => [rd, rs, rm]
      | .mla _ _ rd rn rs rm | .smlaXY _ rd rn rs _ _ rm | .smlawY _ rd rn rs _ rm => [rd, rn, rs, rm]
      | .umull _ _ rdHi rdLo rs rm | .umlal _ _ rdHi rdLo rs rm | .smull _ _ rdHi rdLo rs rm
        | .smlal _ _ rdHi rdLo rs rm | .smlalXY _ rdHi rdLo rs _ _ rm => [rdHi, rdLo, rs, rm]
      | .swp _ rn rd _ rm | .swpb _ rn rd _ rm | .qadd _ rn rd _ rm | .qsub _ rn rd _ rm | .qdadd _ rn rd _ rm
        | .qdsub _ rn rd _ rm => [rn, rd, rm]
      | .strh _ _ _ rn rd off | .ldrh _ _ _ rn rd off | .ldrsb _ _ _ rn rd off
        | .ldrsh _ _ _ rn rd off => [rn, rd] ++ (offset3Reg off).toList
      | .ldrd _ _ _ rn rd off | .strd _ _ _ rn rd off => [rn, rd, rd + 1] ++ (offset3Reg off).toList
      | .msrReg _ _ _ _ _ rm | .bx _ _ rm => [rm]
      | .blxReg _ _ rm => [rm, 14]
      | .clz _ _ rd _ rm => [rd, rm]
      | .armAnd _ _ rn rd op2 | .armEor _ _ rn rd op2 | .armSub _ _ rn rd op2 | .armRsb _ _ rn rd op2
        | .armAdd _ _ rn rd op2 | .armAdc _ _ rn rd op2 | .armSbc _ _ rn rd op2 | .armRsc _ _ rn rd op2
        | .armOrr _ _ rn rd op2 | .armBic _ _ rn rd op2 => [rn, rd] ++ shifted op2
      | .armTst _ rn _ op2 | .armTeq _ rn _ op2 | .armCmp _ rn _ op2 | .armCmn _ rn _ op2 => [rn] ++ shifted op2
      | .armMov _ _ _ rd op2 | .armMvn _ _ _ rd op2 => [rd] ++ shifted op2
      | .ldrt _ _ rn rd off | .ldrbt _ _ rn rd off | .strt _ _ rn rd off | .strbt _ _ rn rd off
        | .ldr _ _ _ rn rd off | .ldrb _ _ _ rn rd off | .str _ _ _ rn rd off
        | .strb _ _ _ rn rd off => [rn, rd] ++ (offset2Reg off).toList
      | .ldm1 _ _ _ rn list | .stm1 _ _ _ rn list | .stm2 _ _ _ rn list | .ldm2 _ _ _ rn list
        | .ldm3 _ _ _ rn list => [rn] ++ listedRegs list
      | .mcrr _ rn rd _ _ _ | .mrrc _ rn rd _ _ _ => [rn, rd]
      | .tAddHigh h1 h2 rs rd | .tCmpHigh h1 h2 rs rd
        | .tMovHigh h1 h2 rs rd => [BitVec.ofBool h1 ++ rd, BitVec.ofBool h2 ++ rs]
      | .tBx rs _ => [rs]
      | .tBlxReg rs _ => [rs, 14]
      | .tStrSp _ _ | .tLdrSp _ _ | .tAddSp _ _ | .tIncSp _ | .tDecSp _ => [13]
      | .tPush r list => [13] ++ listedRegs list ++ (if r then [14] else [])
      | .tPop _ list => [13] ++ listedRegs list
      | .tStmia _ list | .tLdmia _ list => listedRegs list
      | _ => []
    let spsr : Instr → Bool := fun
      | .mrs _ r _ _ _ _ | .msrReg _ r _ _ _ _ | .msrImm _ r _ _ _ _ => r
      | .armAnd _ sf _ rd _ | .armEor _ sf _ rd _ | .armSub _ sf _ rd _ | .armRsb _ sf _ rd _
        | .armAdd _ sf _ rd _ | .armAdc _ sf _ rd _ | .armSbc _ sf _ rd _ | .armRsc _ sf _ rd _
        | .armOrr _ sf _ rd _ | .armBic _ sf _ rd _ | .armMov _ sf _ rd _
        | .armMvn _ sf _ rd _ => sf && rd == 15
      | .ldm3 _ _ _ _ _ => true
      | _ => false
    (touchesBanked s i = true ↔
      condPassed (condOf i) s.cpsr = true ∧ ((∃ r ∈ regs i, 8 ≤ r.toNat ∧ r.toNat ≤ 14) ∨ spsr i = true))) ∧
  ∀ (s s' : State) (i : Instr), takeInputs s = .next s' → legalMode (mode s') = true → s'.pcWrapped = false →
    (s'.pins.dbgEn = true → s'.lines.edbgrq = false ∧ s'.dbg.request = false) →
    (s'.lines.nFIQ = true ∨ psrF s'.cpsr = true ∨ (s'.pins.dbgEn = true ∧ s'.dbg.intDis = true)) →
    (s'.lines.nIRQ = true ∨ psrI s'.cpsr = true ∨ (s'.pins.dbgEn = true ∧ s'.dbg.intDis = true)) →
    fetchAnswer s' = .ok → staleInstr s' = false →
    i = decode (codeOfBytes (thumb s') s'.pins.bigEndian
      (memGetBytes (fetchMem s') s'.pc.toNat (if thumb s' then 2 else 4))) →
    (s'.userBankHazard = false → step s = exec i { fetched s' with vectorEntered := none }) ∧
    (s'.userBankHazard = true → touchesBanked s' i = true → step s = .refused .userBankHazard) ∧
    (s'.userBankHazard = true → touchesBanked s' i = false →
      step s = exec i { fetched s' with userBankHazard := busyWaits s' i, vectorEntered := none })

/-- What comes before the instruction at a boundary, in this order (spec/60_exceptions.md R556, R607, R610, R611, R620):
with no legal mode in the CPSR, none of the seven values of 10_state.md R50 in bits 4 to 0, the core is stuck (R50); a PC past the top of memory is refused (R43, D16); a
debug request ends the modelled run; an FIQ is taken when its line is LOW, F is clear and INTDIS does not inhibit it, then
an IRQ likewise; an aborted fetch takes a Prefetch Abort; a breakpoint, or a caught vector, takes a Prefetch Abort that sets
DbgAbt in monitor mode (R602, R604, R612) and ends the run in halt mode; an unsupported setting is refused (R605), and so is
an instruction that a write changed after it may have been fetched (20_memory.md R117). Each entry has link pc + 4 and
changes nothing else but the CHAINOUT latch, which the fetches may have written (`prefetched`, `fetched`; 10_state.md R71;
log entry 46). A sequential advance passes the top of memory when pc plus the length is past 0xFFFFFFFF (R43; log entry 18),
and a write to the PC is never that. A store makes stale the bytes it changes from the next instruction to the end of the
fourth one ahead, in a unified memory, the memory system also those of the instruction at the PC; an instruction is stale if
one of its bytes is, and a write to the PC refills the pipeline (20_memory.md R116, R117; log entry 19). That debug state
ends the run is log entry 32 (D13). -/
def Obligations.BoundaryTakesInterruptsAndPrefetchAborts : Prop :=
  (∀ m : ModeBits, legalMode m = true ↔ m ∈ [0b10000, 0b10001, 0b10010, 0b10011, 0b10111, 0b11011, 0b11111]) ∧
  (∀ s : State, mode s = fld 0 5 s.cpsr) ∧
  (∀ (n target v : Word) (e : Exception) (s : State),
    (advance n s).pc = s.pc + n ∧ ((advance n s).pcWrapped = true ↔ 0xFFFFFFFF < s.pc.toNat + n.toNat) ∧
    (advance n s).stale = s.stale ∧
    ∀ t ∈ [branchTo target s, takeException e v s], t.pcWrapped = false ∧ t.stale = []) ∧
  (∀ (z : Size) (addr x v : Word) (value : Byte) (s : State),
    let len := if thumb s then 2 else 4
    let ahead := (x - s.pc).toNat
    (x ∈ (writeMem z addr v s).stale ↔ x ∈ s.stale ∨ (s.pins.unifiedMemory = true ∧
      (∃ k, k < z.bytes ∧ x = z.align addr + BitVec.ofNat 32 k) ∧ len ≤ ahead ∧ ahead < 5 * len ∧
      memGet (writeMem z addr v s).mem x.toNat ≠ memGet s.mem x.toNat)) ∧
    (x ∈ (changeByte addr value s).stale ↔ x ∈ s.stale ∨ (s.pins.unifiedMemory = true ∧ x = addr ∧ ahead < 5 * len ∧
      memGet s.mem addr.toNat ≠ value)) ∧
    applyEvent (.memoryByte addr value) s = .next (changeByte addr value s) ∧
    (staleInstr s = true ↔ ∃ k, k < len ∧ s.pc + BitVec.ofNat 32 k ∈ s.stale)) ∧
  ∀ s s' : State, takeInputs s = .next s' →
    let request := s'.pins.dbgEn && (s'.lines.edbgrq || s'.dbg.request)
    let inhibited := s'.pins.dbgEn && s'.dbg.intDis
    let fiq := !s'.lines.nFIQ && !psrF s'.cpsr && !inhibited
    let irq := !s'.lines.nIRQ && !psrI s'.cpsr && !inhibited
    let breakpoint := debugMatch s' (fetchAccess s') (instrBus s')
    let enters := fun e (u : State) => Completes (step s) (Enters u e (s'.pc + 4))
    (legalMode (mode s') = false → step s = .fault .unrecoverableMode) ∧
    (legalMode (mode s') = true →
      (s'.pcWrapped = true → step s = .refused .sequentialWrap) ∧
      (s'.pcWrapped = false →
        (request = true → step s = .fault .debugState) ∧
        (request = false →
          (fiq = true → enters .fiq (prefetched s')) ∧
          (fiq = false → irq = true → enters .irq (prefetched s')) ∧
          (fiq = false → irq = false →
            (platformAborts s' (fetchAccess s') = true → enters .prefetchAbort (prefetched s')) ∧
            (platformAborts s' (fetchAccess s') = false →
              (breakpoint = .hit ∨ (breakpoint = .none ∧ vectorCaught s' = true) →
                (s'.dbg.monitorMode = true →
                  enters .prefetchAbort (setDbgAbt true (fetched s'))) ∧
                (s'.dbg.monitorMode = false → step s = .fault .debugState)) ∧
              (breakpoint = .unsupported → step s = .refused .debugUnsupported) ∧
              (breakpoint = .none → vectorCaught s' = false → staleInstr s' = true →
                step s = .refused .stalePrefetch))))))

/-! Exceptions (spec/60_exceptions.md). -/

/-- Entry to an exception (R555, R560): the link and the old CPSR are saved in the entered mode, the mode, T, I and F of
the CPSR become as the vector table says and no other bit changes, the PC is at the vector, and no other register, no
other SPSR and no memory changes. Reset, which saves nothing, is apart. What is a mode's own register is the table of
10_state.md R31, R34 and R36: r0 to r7 are one copy in every mode, r8 to r12 one copy but for FIQ, r13 and r14 private to
FIQ, IRQ, Supervisor, Abort and Undefined, and User and System the same; registers of one copy are read and written
together, and others apart. -/
def Obligations.ExceptionEntrySavesAndVectors : Prop :=
  (∀ (m m' : ModeBits) (n n' : Reg) (v : Word) (s : State), legalMode m = true → legalMode m' = true → n ≠ 15 → n' ≠ 15 →
    let user := fun m : ModeBits => m = 0b10000 ∨ m = 0b11111
    let oneCopy := n = n' ∧ (n.toNat ≤ 7 ∨ (8 ≤ n.toNat ∧ n.toNat ≤ 12 ∧ (m = 0b10001 ↔ m' = 0b10001)) ∨
      (13 ≤ n.toNat ∧ (m = m' ∨ (user m ∧ user m'))))
    (bankIndex m n = bankIndex m' n' ↔ oneCopy) ∧
    (oneCopy → regAt (setRegAt m n v s) m' n' = v ∧ regAt s m n = regAt s m' n') ∧
    (¬ oneCopy → regAt (setRegAt m n v s) m' n' = regAt s m' n')) ∧
  ∀ (e : Exception) (link : Word) (s : State), e ≠ .reset →
    Enters s e link (takeException e link s) ∧
    psrM (takeException e link s).cpsr =
      (match e with
        | .reset => 0b10011 | .undefined => 0b11011 | .swi => 0b10011 | .prefetchAbort => 0b10111
        | .dataAbort => 0b10111 | .irq => 0b10010 | .fiq => 0b10001) ∧
    psrT (takeException e link s).cpsr = false ∧ psrI (takeException e link s).cpsr = true ∧
    psrF (takeException e link s).cpsr = (if e = .fiq then true else psrF s.cpsr) ∧
    (∀ k, 8 ≤ k → k < 32 → flag k (takeException e link s).cpsr = flag k s.cpsr) ∧
    (takeException e link s).pc = (if s.pins.hiVecs then 0xFFFF0000 else 0) +
      (match e with
        | .reset => 0x00 | .undefined => 0x04 | .swi => 0x08 | .prefetchAbort => 0x0C
        | .dataAbort => 0x10 | .irq => 0x18 | .fiq => 0x1C)

/-- SWI takes its exception, and the undefined spaces the undefined instruction trap, with the address of the next
instruction as the link: pc + 4 in ARM state, pc + 2 in Thumb state (R563, R566). -/
def Obligations.SwiAndUndefinedSpacesTakeTheirExceptions : Prop :=
  ∀ s : State,
    (∀ c imm24, condPassed c s.cpsr = true → Completes (exec (.armSwi c imm24) s) (Enters s .swi (s.pc + 4))) ∧
    (∀ imm8, Completes (exec (.tSwi imm8) s) (Enters s .swi (s.pc + 2))) ∧
    (∀ c high low, condPassed c s.cpsr = true →
      Completes (exec (.undefArm c high low) s) (Enters s .undefined (s.pc + 4))) ∧
    (∀ imm8, Completes (exec (.tUndefDE imm8) s) (Enters s .undefined (s.pc + 2))) ∧
    (∀ bits, Completes (exec (.tUndef11101 bits) s) (Enters s .undefined (s.pc + 2))) ∧
    (∀ bits, Completes (exec (.tUndef1011 bits) s) (Enters s .undefined (s.pc + 2)))

/-- BKPT operates as a Prefetch Abort with link pc + 4 in both states, but enters debug state, which ends the modelled
run, when halt-mode debug is enabled; an ARM BKPT with a condition that passes and is not AL is refused (R564, R615;
log entry 32; U12). -/
def Obligations.BkptIsAPrefetchAbort : Prop :=
  ∀ s : State,
    ((s.pins.dbgEn = false ∨ s.dbg.monitorMode = true) →
      (∀ hi lo, Completes (exec (.bkpt .al hi lo) s) (Enters s .prefetchAbort (s.pc + 4))) ∧
      (∀ imm8, Completes (exec (.tBkpt imm8) s) (Enters s .prefetchAbort (s.pc + 4)))) ∧
    (s.pins.dbgEn = true → s.dbg.monitorMode = false →
      (∀ hi lo, exec (.bkpt .al hi lo) s = .fault .debugState) ∧
      (∀ imm8, exec (.tBkpt imm8) s = .fault .debugState)) ∧
    (∀ c hi lo, c ≠ .al → condPassed c s.cpsr = true → exec (.bkpt c hi lo) s = .refused .bkptCondition)

/-- The unallocated words have no effect to model: the two unconditional rows are refused always, the conditional ones
when their condition passes; when it fails they only advance the PC (spec/30_encoding.md R134, R177). -/
def Obligations.UnallocatedWordsAreRefused : Prop :=
  ∀ s : State,
    (∀ n rest, exec (.unallocUncondCop n rest) s = .refused .unallocated) ∧
    (∀ bits, exec (.unallocUncond bits) s = .refused .unallocated) ∧
    (∀ (c : Cond) (op : BitVec 5) (op2 : BitVec 2) (mid : BitVec 12) (lo low : BitVec 4) (r : Bool) (rest : BitVec 20)
      (rest21 : BitVec 21), ∀ i ∈ [Instr.unallocMulSwp c op mid low, .unallocMisc c op2 mid lo low,
        .unalloc00110 c r rest, .unallocCop c rest21],
      (condPassed c s.cpsr = true → exec i s = .refused .unallocated) ∧
      (condPassed c s.cpsr = false → Completes (exec i s) (WritesFlags s 4 s.cpsr)))

/-- The conditions of R134, their codes and their meaning over the flags N, Z, C, V; which condition an instruction has:
bits 31 to 28 of its word in ARM state, but where they are 1111, and in Thumb state that of a conditional branch; and what
an ARM instruction, or a Thumb conditional branch, does when its condition fails: the PC moves to the next instruction and
nothing else changes, whatever the instruction is, one of an unallocated space or with an UNPREDICTABLE form too (log
entry 25). -/
def Obligations.FailedConditionOnlyAdvances : Prop :=
  ([Cond.eq, .ne, .cs, .cc, .mi, .pl, .vs, .vc, .hi, .ls, .ge, .lt, .gt, .le, .al].map Cond.bits =
    [0b0000, 0b0001, 0b0010, 0b0011, 0b0100, 0b0101, 0b0110, 0b0111, 0b1000, 0b1001, 0b1010, 0b1011, 0b1100, 0b1101,
      0b1110]) ∧
  (∀ (c : Cond) (p : Word), condPassed c p =
    (match c with
      | .eq => flag 30 p | .ne => !flag 30 p | .cs => flag 29 p | .cc => !flag 29 p
      | .mi => flag 31 p | .pl => !flag 31 p | .vs => flag 28 p | .vc => !flag 28 p
      | .hi => flag 29 p && !flag 30 p | .ls => !flag 29 p || flag 30 p
      | .ge => flag 31 p == flag 28 p | .lt => flag 31 p != flag 28 p
      | .gt => !flag 30 p && (flag 31 p == flag 28 p) | .le => flag 30 p || (flag 31 p != flag 28 p)
      | .al => true)) ∧
  (∀ i : Instr,
    (i.isThumb = false → fld 28 4 (encodeArm i) ≠ 0b1111#4 → (condOf i).bits = fld 28 4 (encodeArm i)) ∧
    (i.isThumb = false → fld 28 4 (encodeArm i) = 0b1111#4 → condOf i = .al) ∧
    (i.isThumb = true → condOf i = (match i with | .tBCond c _ => c | _ => .al))) ∧
  (∀ (i : Instr) (s : State), condPassed (condOf i) s.cpsr = false →
    Completes (exec i s) (WritesFlags s (if i.isThumb then 2 else 4) s.cpsr))

/-! ARM data processing (spec/40_arm_data_processing.md). -/

/-- AND, EOR, ORR, BIC, MOV and MVN with a destination other than r15, in every form of the second operand: the result,
with S the flags N and Z of the result, C of the shifter and V as before, and nothing else (R194, R197, R198, R209 to
R212). Every form of the second operand may be used with every register, but with a shift by a register none is r15
(R195). -/
def Obligations.LogicalInstructionsWriteResultAndFlags : Prop :=
  (∀ (regs : List Reg) (op2 : Operand2), operand2Allowed regs op2 = true ↔
    ∀ rs kind rm, op2 = .shiftReg rs kind rm → rs ≠ 15 ∧ rm ≠ 15 ∧ ∀ r ∈ regs, r ≠ 15) ∧
  ∀ (c : Cond) (sf : Bool) (rn rd : Reg) (op2 : Operand2) (s : State), condPassed c s.cpsr = true → rd ≠ 15 →
    let b := (operand2 s op2).value
    let flags := fun v => if sf then setLogical s.cpsr v (operand2 s op2).carry else s.cpsr
    let ends := fun i v => Completes (exec i s) (WritesReg s 4 rd v (flags v))
    (operand2Allowed [rn, rd] op2 = true →
      ends (.armAnd c sf rn rd op2) (armReg s rn &&& b) ∧ ends (.armEor c sf rn rd op2) (armReg s rn ^^^ b) ∧
      ends (.armOrr c sf rn rd op2) (armReg s rn ||| b) ∧ ends (.armBic c sf rn rd op2) (armReg s rn &&& ~~~b)) ∧
    (operand2Allowed [rd] op2 = true →
      ends (.armMov c sf 0 rd op2) b ∧ ends (.armMvn c sf 0 rd op2) (~~~b))

/-- ADD, ADC, SUB, SBC, RSB and RSC with a destination other than r15: the sum or difference modulo 2^32 with the carry
in, and with S all four flags (R194, R199 to R204). -/
def Obligations.ArithmeticInstructionsWriteResultAndFlags : Prop :=
  ∀ (c : Cond) (sf : Bool) (rn rd : Reg) (op2 : Operand2) (s : State), condPassed c s.cpsr = true → rd ≠ 15 →
    operand2Allowed [rn, rd] op2 = true →
    let a := armReg s rn
    let b := (operand2 s op2).value
    let carry : Word := if psrC s.cpsr then 1 else 0
    let ends := fun i v x y k => Completes (exec i s)
      (WritesReg s 4 rd v (if sf then setArithmetic s.cpsr (addWithCarry x y k) else s.cpsr))
    ends (.armAdd c sf rn rd op2) (a + b) a b false ∧
    ends (.armAdc c sf rn rd op2) (a + b + carry) a b (psrC s.cpsr) ∧
    ends (.armSub c sf rn rd op2) (a - b) a (~~~b) true ∧
    ends (.armSbc c sf rn rd op2) (a - b - (1 - carry)) a (~~~b) (psrC s.cpsr) ∧
    ends (.armRsb c sf rn rd op2) (b - a) b (~~~a) true ∧
    ends (.armRsc c sf rn rd op2) (b - a - (1 - carry)) b (~~~a) (psrC s.cpsr)

/-- TST, TEQ, CMP and CMN write the flags and nothing else (R205 to R208). -/
def Obligations.CompareInstructionsWriteOnlyFlags : Prop :=
  ∀ (c : Cond) (rn : Reg) (op2 : Operand2) (s : State), condPassed c s.cpsr = true →
    operand2Allowed [rn] op2 = true →
    let a := armReg s rn
    let b := operand2 s op2
    let ends := fun i flags => Completes (exec i s) (WritesFlags s 4 flags)
    ends (.armTst c rn 0 op2) (setLogical s.cpsr (a &&& b.value) b.carry) ∧
    ends (.armTeq c rn 0 op2) (setLogical s.cpsr (a ^^^ b.value) b.carry) ∧
    ends (.armCmp c rn 0 op2) (setArithmetic s.cpsr (addWithCarry a (~~~b.value) true)) ∧
    ends (.armCmn c rn 0 op2) (setArithmetic s.cpsr (addWithCarry a b.value false))

/-- A data-processing write to r15 (R196, 60_exceptions.md R585), for each of the twelve: without S a jump that stays in ARM
state; with S the CPSR becomes the SPSR of the mode and the PC the result, with bit 0 cleared where the restored T is
1. A result not aligned for the state is refused, and so is the SPSR of User or System mode. -/
def Obligations.DataProcessingWritesToThePc : Prop :=
  ∀ (c : Cond) (sf : Bool) (rn : Reg) (op2 : Operand2) (s : State), condPassed c s.cpsr = true →
    operand2Allowed [rn, 15] op2 = true →
    let a := armReg s rn
    let b := (operand2 s op2).value
    let carry : Word := if psrC s.cpsr then 1 else 0
    ∀ p ∈ [(exec (.armAnd c sf rn 15 op2) s, a &&& b), (exec (.armEor c sf rn 15 op2) s, a ^^^ b),
        (exec (.armSub c sf rn 15 op2) s, a - b), (exec (.armRsb c sf rn 15 op2) s, b - a),
        (exec (.armAdd c sf rn 15 op2) s, a + b), (exec (.armAdc c sf rn 15 op2) s, a + b + carry),
        (exec (.armSbc c sf rn 15 op2) s, a - b - (1 - carry)), (exec (.armRsc c sf rn 15 op2) s, b - a - (1 - carry)),
        (exec (.armOrr c sf rn 15 op2) s, a ||| b), (exec (.armMov c sf 0 15 op2) s, b),
        (exec (.armBic c sf rn 15 op2) s, a &&& ~~~b), (exec (.armMvn c sf 0 15 op2) s, ~~~b)],
    (sf = false → fld 0 2 p.2 = 0#2 → Completes p.1 (Branches s p.2 s.cpsr none)) ∧
    (sf = false → fld 0 2 p.2 ≠ 0#2 → p.1 = .refused .misalignedPc) ∧
    (∀ q, sf = true → spsr s = some q → flag 5 q = true →
      Completes p.1 (Branches s (p.2 &&& 0xFFFFFFFE) q none)) ∧
    (∀ q, sf = true → spsr s = some q → flag 5 q = false → fld 0 2 p.2 = 0#2 →
      Completes p.1 (Branches s p.2 q none)) ∧
    (∀ q, sf = true → spsr s = some q → flag 5 q = false → fld 0 2 p.2 ≠ 0#2 → p.1 = .refused .misalignedPc) ∧
    (sf = true → mode s = modeUser ∨ mode s = modeSys → p.1 = .refused .noSpsr)

/-- `AddWithCarry` (R194): the sum modulo 2^32, its carry out of bit 31 and its signed overflow; a subtraction
`AddWithCarry(a, NOT b, 1)` has C set when there is no borrow. The flag writers change their own bits and no other (R194,
41_arm_multiply_dsp.md R239). -/
def Obligations.CarryOverflowAndFlagBits : Prop :=
  (∀ (x y : Word) (k : Bool),
    (addWithCarry x y k).value = x + y + (if k then 1 else 0) ∧
    (addWithCarry x y k).carry = decide (2 ^ 32 ≤ x.toNat + y.toNat + (if k then 1 else 0)) ∧
    (addWithCarry x y k).overflow = decide ((addWithCarry x y k).value.toInt ≠
      x.toInt + y.toInt + (if k then 1 else 0)) ∧
    (addWithCarry x (~~~y) true).value = x - y ∧
    (addWithCarry x (~~~y) true).carry = decide (y ≤ x) ∧
    (addWithCarry x (~~~y) true).overflow = decide ((x - y).toInt ≠ x.toInt - y.toInt)) ∧
  (∀ (p v : Word) (carry o : Bool) (r : AluResult) (i : Nat), i < 32 →
    flag i (setLogical p v carry) =
      (if i = 31 then v.msb else if i = 30 then decide (v = 0) else if i = 29 then carry else flag i p) ∧
    flag i (setResultNZ p v) = (if i = 31 then v.msb else if i = 30 then decide (v = 0) else flag i p) ∧
    flag i (setArithmetic p r) =
      (if i = 31 then r.value.msb else if i = 30 then decide (r.value = 0) else if i = 29 then r.carry
        else if i = 28 then r.overflow else flag i p) ∧
    flag i (stickyQ p o) = (if i = 27 then o || flag 27 p else flag i p))

/-- The shifter operand bit by bit (R191 to R193). By an immediate: a rotation of the byte; LSL, LSR, ASR and ROR by 1 to 31;
the amount 0 means LSL by 0, LSR by 32, ASR by 32, and RRX. By the low byte of a register: 0 leaves the value and C, 1 to
31 shift, 32 and more give the limits of each kind, ROR going by the amount modulo 32. A register operand r15 is pc + 8. -/
def Obligations.ShifterOperand : Prop :=
  (∀ (s : State) (rot : BitVec 4) (imm8 : BitVec 8) (amount : BitVec 5) (kind : ShiftKind) (rs rm : Reg),
    let reg := fun n : Reg => if n = 15 then s.pc + 8 else regAt s (mode s) n
    operand2 s (.imm rot imm8) = rotatedImm (psrC s.cpsr) rot imm8 ∧
    operand2 s (.shiftImm amount kind rm) = shiftByImm (psrC s.cpsr) kind (reg rm) amount ∧
    operand2 s (.shiftReg rs kind rm) = shiftByReg (psrC s.cpsr) kind (reg rm) (fld 0 8 (reg rs))) ∧
  (∀ (k : Bool) (m : Word) (amount : BitVec 5) (rot : BitVec 4) (imm8 : BitVec 8) (i : Nat), i < 32 →
    flag i (rotatedImm k rot imm8).value = flag ((i + 2 * rot.toNat) % 32) (zext imm8) ∧
    (rotatedImm k rot imm8).carry = (if rot = 0 then k else flag 31 (rotatedImm k rot imm8).value) ∧
    flag i (shiftByImm k .lsl m amount).value = (decide (amount.toNat ≤ i) && flag (i - amount.toNat) m) ∧
    (shiftByImm k .lsl m amount).carry = (if amount = 0 then k else flag (32 - amount.toNat) m) ∧
    flag i (shiftByImm k .lsr m amount).value = (decide (amount ≠ 0) && flag (i + amount.toNat) m) ∧
    (shiftByImm k .lsr m amount).carry = (if amount = 0 then flag 31 m else flag (amount.toNat - 1) m) ∧
    flag i (shiftByImm k .asr m amount).value =
      (if amount = 0 ∨ 32 ≤ i + amount.toNat then flag 31 m else flag (i + amount.toNat) m) ∧
    (shiftByImm k .asr m amount).carry = (if amount = 0 then flag 31 m else flag (amount.toNat - 1) m) ∧
    flag i (shiftByImm k .ror m amount).value =
      (if amount = 0 then (if i = 31 then k else flag (i + 1) m) else flag ((i + amount.toNat) % 32) m) ∧
    (shiftByImm k .ror m amount).carry = (if amount = 0 then flag 0 m else flag (amount.toNat - 1) m)) ∧
  (∀ (k : Bool) (m : Word) (amount : Byte) (i : Nat), i < 32 →
    let n := amount.toNat
    (n = 0 → ∀ kind, shiftByReg k kind m amount = ⟨m, k⟩) ∧
    (0 < n →
      flag i (shiftByReg k .lsl m amount).value = (decide (n ≤ i) && flag (i - n) m) ∧
      (shiftByReg k .lsl m amount).carry = (decide (n ≤ 32) && flag (32 - n) m) ∧
      flag i (shiftByReg k .lsr m amount).value = flag (i + n) m ∧
      (shiftByReg k .lsr m amount).carry = flag (n - 1) m ∧
      flag i (shiftByReg k .asr m amount).value = (if 32 ≤ i + n then flag 31 m else flag (i + n) m) ∧
      (shiftByReg k .asr m amount).carry = (if 32 ≤ n then flag 31 m else flag (n - 1) m) ∧
      flag i (shiftByReg k .ror m amount).value = flag ((i + n) % 32) m ∧
      (shiftByReg k .ror m amount).carry = flag ((n - 1) % 32) m))

/-- CLZ (R213): 32 for zero, else 31 minus the position of the most significant 1; no flag changes. r15 is refused. -/
def Obligations.ClzCountsLeadingZeros : Prop :=
  ∀ (c : Cond) (rd rm : Reg) (s : State), condPassed c s.cpsr = true →
    (rd = 15 ∨ rm = 15 → exec (.clz c 15 rd 15 rm) s = .refused .r15Operand) ∧
    (rd ≠ 15 → rm ≠ 15 →
      (armReg s rm = 0 → Completes (exec (.clz c 15 rd 15 rm) s) (WritesReg s 4 rd 32 s.cpsr)) ∧
      (∀ k, k < 32 → flag k (armReg s rm) = true → (∀ j, k < j → flag j (armReg s rm) = false) →
        Completes (exec (.clz c 15 rd 15 rm) s) (WritesReg s 4 rd (BitVec.ofNat 32 (31 - k)) s.cpsr)))

/-! ARM multiplies (spec/41_arm_multiply_dsp.md). -/

/-- MUL and MLA write the low word of the product, or of the product plus `Rn`; UMULL and SMULL write the 64-bit product
to the pair; with S, N and Z are those of the result and C and V stay (R232 to R234, R237). -/
def Obligations.MultipliesWriteTheProduct : Prop :=
  ∀ (c : Cond) (sf : Bool) (rd rn rs rm : Reg) (s : State), condPassed c s.cpsr = true →
    rd ≠ 15 → rn ≠ 15 → rs ≠ 15 → rm ≠ 15 → rd ≠ rm →
    let m := armReg s rm
    let v := armReg s rs
    let flags := fun w : Word => if sf then setResultNZ s.cpsr w else s.cpsr
    let flags64 := fun w : BitVec 64 => if sf then setNZ s.cpsr w.msb (w == 0) else s.cpsr
    Completes (exec (.mul c sf rd 0 rs rm) s) (WritesReg s 4 rd (m * v) (flags (m * v))) ∧
    Completes (exec (.mla c sf rd rn rs rm) s)
      (WritesReg s 4 rd (m * v + armReg s rn) (flags (m * v + armReg s rn))) ∧
    (rn ≠ rd → rn ≠ rm →
      Completes (exec (.umull c sf rd rn rs rm) s)
        (let w : BitVec 64 := BitVec.ofNat 64 (m.toNat * v.toNat)
        WritesPair s 4 rd rn (fld 32 32 w) (fld 0 32 w) (flags64 w)) ∧
      Completes (exec (.smull c sf rd rn rs rm) s)
        (let w : BitVec 64 := BitVec.ofInt 64 (m.toInt * v.toInt)
        WritesPair s 4 rd rn (fld 32 32 w) (fld 0 32 w) (flags64 w)))

/-- UMLAL, SMLAL and SMLALxy add the product to the 64-bit value of the register pair modulo 2^64 (R236, R235, R238,
R249); the first two set N and Z with S, SMLALxy no flag; Q stays. -/
def Obligations.LongMultipliesAccumulateInThePair : Prop :=
  ∀ (c : Cond) (sf y x : Bool) (rdHi rdLo rs rm : Reg) (s : State), condPassed c s.cpsr = true →
    rdHi ≠ 15 → rdLo ≠ 15 → rs ≠ 15 → rm ≠ 15 → rdHi ≠ rdLo →
    let acc : BitVec 64 := armReg s rdHi ++ armReg s rdLo
    let ends := fun i (w : BitVec 64) flags =>
      Completes (exec i s) (WritesPair s 4 rdHi rdLo (fld 32 32 w) (fld 0 32 w) flags)
    let flags := fun w : BitVec 64 => if sf then setNZ s.cpsr w.msb (w == 0) else s.cpsr
    (rdHi ≠ rm → rdLo ≠ rm →
      (let w := acc + (armReg s rm).setWidth 64 * (armReg s rs).setWidth 64
      ends (.umlal c sf rdHi rdLo rs rm) w (flags w)) ∧
      (let w := acc + (armReg s rm).signExtend 64 * (armReg s rs).signExtend 64
      ends (.smlal c sf rdHi rdLo rs rm) w (flags w))) ∧
    (let w := acc + (fld (if x then 16 else 0) 16 (armReg s rm)).signExtend 64 *
        (fld (if y then 16 else 0) 16 (armReg s rs)).signExtend 64
    ends (.smlalXY c rdHi rdLo rs y x rm) w s.cpsr)

/-- QADD, QSUB, QDADD and QDSUB: the result is the sum or difference, with `Rn` doubled and saturated first in the D
forms, clamped to a signed word; Q is set if the doubling or the sum was clamped and else stays; N, Z, C, V stay (R239 to
R243). -/
def Obligations.SaturatingInstructionsClampAndSetQ : Prop :=
  ∀ (c : Cond) (rn rd rm : Reg) (s : State), condPassed c s.cpsr = true → rn ≠ 15 → rd ≠ 15 → rm ≠ 15 →
    let m := (armReg s rm).toInt
    let n := (armReg s rn).toInt
    let clamp := fun v : Int => max (-(2 ^ 31)) (min v (2 ^ 31 - 1))
    let ends := fun i (v : Int) (q : Prop) [Decidable q] => Completes (exec i s)
      (WritesReg s 4 rd (BitVec.ofInt 32 (clamp v)) (if q ∨ clamp v ≠ v then setBit s.cpsr 27 true else s.cpsr))
    ends (.qadd c rn rd 0 rm) (m + n) False ∧ ends (.qsub c rn rd 0 rm) (m - n) False ∧
    ends (.qdadd c rn rd 0 rm) (m + clamp (2 * n)) (clamp (2 * n) ≠ 2 * n) ∧
    ends (.qdsub c rn rd 0 rm) (m - clamp (2 * n)) (clamp (2 * n) ≠ 2 * n)

/-- SMULxy and SMULWy write a product of signed halves, or bits 47 to 16 of a word by half product; SMLAxy and SMLAWy add
`Rn` modulo 2^32 and set Q when that sum does not fit a signed word (R244 to R248). -/
def Obligations.HalfwordMultipliesAndTheirSums : Prop :=
  ∀ (c : Cond) (y x : Bool) (rd rn rs rm : Reg) (s : State), condPassed c s.cpsr = true →
    rd ≠ 15 → rn ≠ 15 → rs ≠ 15 → rm ≠ 15 →
    let half := fun (v : Word) (top : Bool) => (fld (if top then 16 else 0) 16 v).toInt
    let p := half (armReg s rm) x * half (armReg s rs) y
    let q := (armReg s rm).toInt * half (armReg s rs) y / 2 ^ 16
    let n := (armReg s rn).toInt
    let sum := fun v : Int =>
      WritesReg s 4 rd (BitVec.ofInt 32 v) (if (BitVec.ofInt 32 v).toInt ≠ v then setBit s.cpsr 27 true else s.cpsr)
    Completes (exec (.smulXY c rd 0 rs y x rm) s) (WritesReg s 4 rd (BitVec.ofInt 32 p) s.cpsr) ∧
    Completes (exec (.smulwY c rd 0 rs y rm) s) (WritesReg s 4 rd (BitVec.ofInt 32 q) s.cpsr) ∧
    Completes (exec (.smlaXY c rd rn rs y x rm) s) (sum (p + n)) ∧
    Completes (exec (.smlawY c rd rn rs y rm) s) (sum (q + n))

/-! ARM branches (spec/42_arm_branch.md). -/

/-- B, BL and BLX to a label go to pc + 8 plus the sign-extended offset in words, with bit 1 from H in BLX, which enters
Thumb state; BL and BLX leave the address of the next instruction in r14 (R270, R271, R273). -/
def Obligations.ArmBranchesToALabel : Prop :=
  ∀ (c : Cond) (h : Bool) (imm24 : BitVec 24) (s : State),
    let target := BitVec.ofInt 32 (s.pc.toInt + 8 + 4 * imm24.toInt)
    (condPassed c s.cpsr = true →
      Completes (exec (.b c imm24) s) (Branches s target s.cpsr none) ∧
      Completes (exec (.bl c imm24) s) (Branches s target s.cpsr (some (s.pc + 4)))) ∧
    Completes (exec (.blxImm h imm24) s)
      (Branches s (target + if h then 2 else 0) (setBit s.cpsr 5 true) (some (s.pc + 4)))

/-- BX and BLX to a register, in ARM and in Thumb state: bit 0 of the register becomes T and the PC the rest; the register
is read before r14 is written; in Thumb state the link has bit 0 set. Bits 1:0 = 10 are refused, and so is r15 in BLX
(R272, R274, 48_thumb_branch_load_store.md R522, R523). A register r15 reads as pc + 8 in ARM state and as pc + 4 in Thumb
state (10_state.md R41). -/
def Obligations.RegisterBranchesExchangeState : Prop :=
  (∀ (r : Reg) (s : State), armReg s r = (if r = 15 then s.pc + 8 else regAt s (mode s) r) ∧
    thumbReg s r = (if r = 15 then s.pc + 4 else regAt s (mode s) r)) ∧
  ∀ (c : Cond) (rm : Reg) (s : State), condPassed c s.cpsr = true →
    let goesTo := fun i v link => fld 0 2 v ≠ 0b10#2 →
      Completes (exec i s) (Branches s (v &&& 0xFFFFFFFE) (setBit s.cpsr 5 (flag 0 v)) link)
    let stops := fun i v => fld 0 2 v = 0b10#2 → exec i s = .refused .misalignedPc
    goesTo (.bx c 0xFFF rm) (armReg s rm) none ∧ stops (.bx c 0xFFF rm) (armReg s rm) ∧
    goesTo (.tBx rm 0) (thumbReg s rm) none ∧ stops (.tBx rm 0) (thumbReg s rm) ∧
    (rm ≠ 15 →
      goesTo (.blxReg c 0xFFF rm) (armReg s rm) (some (s.pc + 4)) ∧ stops (.blxReg c 0xFFF rm) (armReg s rm) ∧
      goesTo (.tBlxReg rm 0) (thumbReg s rm) (some ((s.pc + 2) ||| 1)) ∧ stops (.tBlxReg rm 0) (thumbReg s rm)) ∧
    exec (.blxReg c 0xFFF 15) s = .refused .r15Operand ∧ exec (.tBlxReg 15 0) s = .refused .r15Operand

/-! ARM loads and stores (spec/43_arm_load_store.md, 44_arm_load_store_multiple.md). -/

/-- LDR, LDRB, LDRT and LDRBT to a register other than r15, at every index mode and offset: the word, rotated so that the
addressed byte is lowest, or the byte; the base written back as the index mode says; the T forms are shown to memory as
User accesses (R292, R300 to R303, 20_memory.md R99, R104). First the addressing modes 2 and 3 that this statement and
the ones after it use: the offset is the immediate, or `Rm`, in mode 2 shifted by an immediate as R192 says (R291, R293);
the address is the base plus or minus the offset, by U, or the base when post-indexed, and every mode but the offset mode
writes base plus or minus offset back (R292); r15 reads as pc + 8; and the registers that R294 forbids. -/
def Obligations.WordAndByteLoads : Prop :=
  (∀ (s : State) (idx : Index) (u : Bool) (rn rd rm : Reg) (rm? : Option Reg) (pcOk : Bool) (kind : ShiftKind)
      (amount : BitVec 5) (imm12 : BitVec 12) (imm8 : BitVec 8) (sbz : BitVec 4) (o : Word),
    let reg := fun n : Reg => if n = 15 then s.pc + 8 else regAt s (mode s) n
    let m := reg rm
    let moved := if u then reg rn + o else reg rn - o
    armReg s rm = m ∧
    (offset2 s (.imm imm12)).toNat = imm12.toNat ∧ (offset3 s (.imm imm8)).toNat = imm8.toNat ∧
    offset3 s (.reg sbz rm) = m ∧
    offset2 s (.reg amount kind rm) = (match kind with
      | .lsl => m <<< amount.toNat
      | .lsr => if amount = 0 then 0 else m >>> amount.toNat
      | .asr => if amount = 0 then (if flag 31 m then 0xFFFFFFFF else 0) else m.sshiftRight amount.toNat
      | .ror => if amount = 0 then (if flag 29 s.cpsr then 0x80000000 else 0) ||| (m >>> 1)
        else m.rotateRight amount.toNat) ∧
    offset2Reg (.imm imm12) = none ∧ offset2Reg (.reg amount kind rm) = some rm ∧
    offset3Reg (.imm imm8) = none ∧ offset3Reg (.reg sbz rm) = some rm ∧
    offset3Sbz (.imm imm8) = true ∧ (offset3Sbz (.reg sbz rm) = true ↔ sbz = 0) ∧
    singleAddr s idx u rn o = (match idx with
      | .offset => moved | .preIndexed => moved | .postIndexed => reg rn | .postWriteback => reg rn) ∧
    Index.newBase idx (reg rn) o u = (match idx with
      | .offset => none | .preIndexed => some moved | .postIndexed => some moved | .postWriteback => some moved) ∧
    (loadStoreAllowed idx rn rd rm? pcOk = true ↔
      idx ≠ .postWriteback ∧ rm? ≠ some 15 ∧ (rd = 15 → pcOk = true) ∧
      (idx ≠ .offset → rn ≠ 15 ∧ rm? ≠ some rn ∧ rd ≠ rn))) ∧
  ∀ (c : Cond) (u : Bool) (idx : Index) (rn rd : Reg) (off : Offset2) (s : State), condPassed c s.cpsr = true →
    let o := offset2 s off
    let reads := fun forced z a => dataAnswer s (dataAccess s forced z false false a) 0 = .ok
    let word := fun a : Word => (readMem s .word a).rotateRight (8 * (fld 0 2 a).toNat)
    (loadStoreAllowed idx rn rd (offset2Reg off) false = true →
      let a := singleAddr s idx u rn o
      let base := Index.newBase idx (armReg s rn) o u
      (reads false .word a → Completes (exec (.ldr c u idx rn rd off) s) (Loads s 4 rd (word a) rn base)) ∧
      (reads false .byte a → Completes (exec (.ldrb c u idx rn rd off) s)
        (Loads s 4 rd (zext (memGet s.mem a.toNat)) rn base))) ∧
    (loadStoreAllowed .postIndexed rn rd (offset2Reg off) false = true →
      let a := armReg s rn
      let base := Index.newBase .postIndexed (armReg s rn) o u
      (reads true .word a → Completes (exec (.ldrt c u rn rd off) s) (Loads s 4 rd (word a) rn base)) ∧
      (reads true .byte a → Completes (exec (.ldrbt c u rn rd off) s)
        (Loads s 4 rd (zext (memGet s.mem a.toNat)) rn base)))

/-- LDR to r15 from an aligned address: bit 0 of the word becomes T and the PC the rest; a word with bits 1:0 = 10, an
unaligned address, and every word with `CFGDISLTBIT` HIGH are refused (R300, 20_memory.md R99; 92_eei_decisions.md D3). ARM
state. -/
def Obligations.LoadToThePc : Prop :=
  ∀ (c : Cond) (u : Bool) (idx : Index) (rn : Reg) (off : Offset2) (s : State), condPassed c s.cpsr = true →
    thumb s = false → loadStoreAllowed idx rn 15 (offset2Reg off) true = true →
    let o := offset2 s off
    let a := singleAddr s idx u rn o
    let base := Index.newBase idx (armReg s rn) o u
    let v := readMem s .word a
    let r := exec (.ldr c u idx rn 15 off) s
    (fld 0 2 a ≠ 0#2 → r = .refused .misalignedPc) ∧
    (fld 0 2 a = 0#2 → dataAnswer s (dataAccess s false .word false false a) 0 = .ok →
      (s.pins.disLTBit = false → fld 0 2 v ≠ 0b10#2 →
        Completes r (LoadsPc s (v &&& 0xFFFFFFFE) (setBit s.cpsr 5 (flag 0 v)) rn base)) ∧
      (s.pins.disLTBit = false → fld 0 2 v = 0b10#2 → r = .refused .misalignedPc) ∧
      (s.pins.disLTBit = true → r = .refused .disLTBitHigh))

/-- STR, STRB, STRT and STRBT store the word at the address with its low bits ignored, or the low byte; r15 stores pc plus
the implementation's offset; no other byte changes (R292, R320 to R323, 20_memory.md R96, R99). A store that the memory
system ignores completes the same but for memory (20_memory.md R112). -/
def Obligations.WordAndByteStores : Prop :=
  ∀ (c : Cond) (u : Bool) (idx : Index) (rn rd : Reg) (off : Offset2) (s : State), condPassed c s.cpsr = true →
    Memory.wf s.mem = true →
    let o := offset2 s off
    let ends := fun i forced z a v base =>
      (dataAnswer s (dataAccess s forced z true false a) v = .ok → Completes (exec i s) (Stores s 4 z a v rn base)) ∧
      (dataAnswer s (dataAccess s forced z true false a) v = .ignored →
        Completes (exec i s) (IgnoresStore s 4 rn base))
    let word := if rd = 15 then s.pc + (if Config.storePcOffsetIs12 then 12 else 8) else armReg s rd
    (loadStoreAllowed idx rn rd (offset2Reg off) true = true →
      ends (.str c u idx rn rd off) false .word (singleAddr s idx u rn o) word
        (Index.newBase idx (armReg s rn) o u)) ∧
    (loadStoreAllowed idx rn rd (offset2Reg off) false = true →
      ends (.strb c u idx rn rd off) false .byte (singleAddr s idx u rn o) (armReg s rd)
        (Index.newBase idx (armReg s rn) o u)) ∧
    (loadStoreAllowed .postIndexed rn rd (offset2Reg off) false = true →
      let base := Index.newBase .postIndexed (armReg s rn) o u
      ends (.strt c u rn rd off) true .word (armReg s rn) (armReg s rd) base ∧
      ends (.strbt c u rn rd off) true .byte (armReg s rn) (armReg s rd) base)

/-- LDRH, LDRSH, LDRSB and STRH at every index mode and offset; a halfword at an odd address is refused (R293, R304 to
R306, R324, 20_memory.md R99); a store that the memory system ignores changes no memory (R112). -/
def Obligations.HalfwordAndSignedTransfers : Prop :=
  ∀ (c : Cond) (u : Bool) (idx : Index) (rn rd : Reg) (off : Offset3) (s : State), condPassed c s.cpsr = true →
    offset3Sbz off = true → loadStoreAllowed idx rn rd (offset3Reg off) false = true →
    let o := offset3 s off
    let a := singleAddr s idx u rn o
    let base := Index.newBase idx (armReg s rn) o u
    let reads := fun z => dataAnswer s (dataAccess s false z false false a) 0 = .ok
    (reads .byte → Completes (exec (.ldrsb c u idx rn rd off) s)
      (Loads s 4 rd ((memGet s.mem a.toNat).signExtend 32) rn base)) ∧
    (flag 0 a = false →
      (reads .half → Completes (exec (.ldrh c u idx rn rd off) s) (Loads s 4 rd (readMem s .half a) rn base)) ∧
      (reads .half → Completes (exec (.ldrsh c u idx rn rd off) s)
        (Loads s 4 rd ((fld 0 16 (readMem s .half a)).signExtend 32) rn base)) ∧
      (Memory.wf s.mem = true → dataAnswer s (dataAccess s false .half true false a) (armReg s rd) = .ok →
        Completes (exec (.strh c u idx rn rd off) s) (Stores s 4 .half a (armReg s rd) rn base)) ∧
      (dataAnswer s (dataAccess s false .half true false a) (armReg s rd) = .ignored →
        Completes (exec (.strh c u idx rn rd off) s) (IgnoresStore s 4 rn base))) ∧
    (flag 0 a = true → ∀ i ∈ [Instr.ldrh c u idx rn rd off, .ldrsh c u idx rn rd off, .strh c u idx rn rd off],
      exec i s = .refused .unalignedAccess)

/-- LDRD and STRD at an address that is a multiple of 8 move the even register and the next one. Refused are another
address, an odd `Rd`, r14, write-back to a base that is the second register, and for LDRD an offset register in the pair
(R307, R325; U15). -/
def Obligations.DoublewordTransfers : Prop :=
  ∀ (c : Cond) (u : Bool) (idx : Index) (rn rd : Reg) (off : Offset3) (s : State), condPassed c s.cpsr = true →
    offset3Sbz off = true → loadStoreAllowed idx rn rd (offset3Reg off) false = true →
    let o := offset3 s off
    let a := singleAddr s idx u rn o
    let base := Index.newBase idx (armReg s rn) o u
    let forbidden := flag 0 rd = true ∨ rd = 14 ∨ (idx ≠ .offset ∧ rn = rd + 1)
    let offsetInPair := offset3Reg off = some rd ∨ offset3Reg off = some (rd + 1)
    (fld 0 3 a = 0#3 →
      (¬ forbidden → ¬ offsetInPair → LoadsAnswered s a 2 →
        Completes (exec (.ldrd c u idx rn rd off) s)
          (LoadsMany s (mode s) [rd, rd + 1] a rn base (s.pc + 4) s.cpsr s.userBankHazard)) ∧
      (¬ forbidden → Memory.wf s.mem = true → StoresAnswered s [armReg s rd, armReg s (rd + 1)] a →
        Completes (exec (.strd c u idx rn rd off) s)
          (StoresMany s 4 [armReg s rd, armReg s (rd + 1)] a rn base s.userBankHazard)) ∧
      (forbidden → ∀ i ∈ [Instr.ldrd c u idx rn rd off, .strd c u idx rn rd off],
        exec i s = .refused .loadStoreRegisters) ∧
      (offsetInPair → exec (.ldrd c u idx rn rd off) s = .refused .loadStoreRegisters)) ∧
    (fld 0 3 a ≠ 0#3 → ∀ i ∈ [Instr.ldrd c u idx rn rd off, .strd c u idx rn rd off],
      exec i s = .refused .unalignedAccess)

/-- SWP and SWPB read, then write, the same address, both accesses locked: `Rd` takes the old word (rotated) or byte,
memory the value `Rm` had (R360, R361, 20_memory.md R106). The debug logic sees the read before the write; a write that
the memory system ignores leaves memory (R112). -/
def Obligations.SwapReadsThenWrites : Prop :=
  ∀ (c : Cond) (rn rd rm : Reg) (s : State), condPassed c s.cpsr = true → rd ≠ 15 → rm ≠ 15 → rn ≠ 15 →
    rn ≠ rm → rn ≠ rd → Memory.wf s.mem = true →
    let a := armReg s rn
    let m := armReg s rm
    let ends := fun i (z : Size) old =>
      let read := dataAccess s false z false true a
      let write := dataAnswer (latched read 0 s) (dataAccess s false z true true a) m
      dataAnswer s read 0 = .ok → write = .ok ∨ write = .ignored →
      Completes (exec i s) fun t => regAt t (mode s) rd = old ∧ RegsKept s t [(mode s, rd)] ∧
        (write = .ok → memGetBytes t.mem (z.align a).toNat z.bytes = laneBytes s.pins.bigEndian z m ∧
          MemKeptOutside s t z a) ∧
        (write = .ignored → MemKept s t) ∧ t.cpsr = s.cpsr ∧ t.pc = s.pc + 4 ∧ SpecialsKept s t
    ends (.swp c rn rd 0 rm) .word ((readMem s .word a).rotateRight (8 * (fld 0 2 a).toNat)) ∧
    ends (.swpb c rn rd 0 rm) .byte (zext (memGet s.mem a.toNat))

/-- PLD and the no-operation word only advance the PC (R330, 45_arm_status_swi_bkpt.md R376). A PLD with a register
offset is refused with bit 4 set, as no addressing mode, and with r15 there (log entry 44). -/
def Obligations.PldAndNopOnlyAdvance : Prop :=
  ∀ (i u : Bool) (rn : Reg) (addrMode : BitVec 12) (s : State),
    let pld := exec (.pld i u rn addrMode) s
    Completes (exec .nop s) (WritesFlags s 4 s.cpsr) ∧
    ((i = true → flag 4 addrMode = false ∧ fld 0 4 addrMode ≠ 15#4) → Completes pld (WritesFlags s 4 s.cpsr)) ∧
    (i = true → flag 4 addrMode = true → pld = .refused .unallocated) ∧
    (i = true → flag 4 addrMode = false → fld 0 4 addrMode = 15#4 → pld = .refused .r15Operand)

/-- An aborted single load, store or swap, in ARM or Thumb state, takes a Data Abort with link pc + 8 and changes nothing
else: the destination and the base are not written and memory is as before (R297, 44_arm_load_store_multiple.md R360,
60_exceptions.md R568 to R570). A monitor-mode watchpoint takes the same Data Abort and sets DbgAbt; only the destination
of the load, or the bytes of the store, may have been written (R603, R604; log entry 31). First what an access is answered:
it shows its address as driven, size, direction, privilege, mode and lock (20_memory.md R103, R104); an access rule of the
platform covers it by these, with an address range (92_eei_decisions.md D8; log entry 15); an abort rule aborts it, a write
that an ignoreWrite rule covers and no abort rule is ignored (R112), and with DBGEN LOW nothing else answers it. -/
def Obligations.AbortedTransferChangesNothing : Prop :=
  (∀ (s : State) (forced write locked : Bool) (z : Size) (addr : Word), dataAccess s forced z write locked addr =
    { fetch := false, addr := addr, size := z, write := write, priv := !forced && mode s != 0b10000,
      mode := if forced then 0b10000 else mode s, locked := locked }) ∧
  (∀ (s : State) (a : Access) (v : Word),
    let covers := fun r : AccessRule => r.fetch = a.fetch ∧ r.lo ≤ a.addr ∧ a.addr ≤ r.hi ∧
      (∀ z, r.size = some z → z = a.size) ∧ (∀ w, r.write = some w → w = a.write) ∧
      (∀ p, r.priv = some p → p = a.priv) ∧ (∀ m, r.mode = some m → m = a.mode) ∧
      (∀ l, r.locked = some l → l = a.locked)
    (platformAborts s a = true ↔ ∃ r ∈ s.accessRules, r.answer = .abort ∧ covers r) ∧
    (platformIgnores s a = true ↔ a.write = true ∧ ∃ r ∈ s.accessRules, r.answer = .ignoreWrite ∧ covers r) ∧
    (s.pins.dbgEn = false → dataAnswer s a v =
      (if platformAborts s a then .abort else if platformIgnores s a then .ignored else .ok))) ∧
  ∀ (c : Cond) (u : Bool) (idx : Index) (rn rd rm : Reg) (off : Offset2) (off3 : Offset3) (ro rb tr : LowReg)
    (imm5 : BitVec 5) (imm8 : BitVec 8) (s : State),
    let seen := fun (q : State) i (acc : Access) v dst =>
      (dataAnswer q acc v = .abort → Completes (exec i s) (Enters s .dataAbort (s.pc + 8))) ∧
      (dataAnswer q acc v = .debugAbort → Completes (exec i s) fun t =>
        AbortsData s dst (setDbgAbt true s).dbg s.cops t ∧ (acc.write = false → MemKept s t) ∧
          MemKeptOutside s t acc.size acc.addr)
    let ends := seen s
    let a := singleAddr s idx u rn (offset2 s off)
    let a3 := singleAddr s idx u rn (offset3 s off3)
    let b := armReg s rn
    let v := armReg s rd
    let loads := fun i forced z addr => ends i (dataAccess s forced z false false addr) 0 [(mode s, rd)]
    let stores := fun i forced z addr => ends i (dataAccess s forced z true false addr) v []
    let swaps := fun i z =>
      let read := dataAccess s false z false true b
      ends i read 0 [] ∧ (dataAnswer s read 0 = .ok →
        seen (latched read 0 s) i (dataAccess s false z true true b) (armReg s rm) [])
    let x := armReg s (lowReg rb)
    let o := armReg s (lowReg ro)
    let tLoads := fun i z addr => ends i (dataAccess s false z false false addr) 0 [(mode s, lowReg tr)]
    let tStores := fun i z addr => ends i (dataAccess s false z true false addr) (armReg s (lowReg tr)) []
    let spRel := regAt s (mode s) 13 + 4 * zext imm8
    (condPassed c s.cpsr = true →
      (loadStoreAllowed idx rn rd (offset2Reg off) false = true →
        loads (.ldr c u idx rn rd off) false .word a ∧ loads (.ldrb c u idx rn rd off) false .byte a ∧
        stores (.str c u idx rn rd off) false .word a ∧ stores (.strb c u idx rn rd off) false .byte a) ∧
      (loadStoreAllowed idx rn 15 (offset2Reg off) true = true →
        (fld 0 2 a = 0#2 → ends (.ldr c u idx rn 15 off) (dataAccess s false .word false false a) 0 []) ∧
        ends (.str c u idx rn 15 off) (dataAccess s false .word true false a) (storedPc s) []) ∧
      (loadStoreAllowed .postIndexed rn rd (offset2Reg off) false = true →
        loads (.ldrt c u rn rd off) true .word b ∧ loads (.ldrbt c u rn rd off) true .byte b ∧
        stores (.strt c u rn rd off) true .word b ∧ stores (.strbt c u rn rd off) true .byte b) ∧
      (offset3Sbz off3 = true → loadStoreAllowed idx rn rd (offset3Reg off3) false = true →
        loads (.ldrsb c u idx rn rd off3) false .byte a3 ∧
        (flag 0 a3 = false →
          loads (.ldrh c u idx rn rd off3) false .half a3 ∧ loads (.ldrsh c u idx rn rd off3) false .half a3 ∧
          stores (.strh c u idx rn rd off3) false .half a3)) ∧
      (rd ≠ 15 → rm ≠ 15 → rn ≠ 15 → rn ≠ rm → rn ≠ rd →
        swaps (.swp c rn rd 0 rm) .word ∧ swaps (.swpb c rn rd 0 rm) .byte)) ∧
    tLoads (.tLdrPc tr imm8) .word (((s.pc + 4) &&& 0xFFFFFFFC) + 4 * zext imm8) ∧
    tLoads (.tLdrSp tr imm8) .word spRel ∧ tStores (.tStrSp tr imm8) .word spRel ∧
    tLoads (.tLdrReg ro rb tr) .word (x + o) ∧ tStores (.tStrReg ro rb tr) .word (x + o) ∧
    tLoads (.tLdrImm imm5 rb tr) .word (x + 4 * zext imm5) ∧
    tStores (.tStrImm imm5 rb tr) .word (x + 4 * zext imm5) ∧
    tLoads (.tLdrbReg ro rb tr) .byte (x + o) ∧ tLoads (.tLdrsb ro rb tr) .byte (x + o) ∧
    tStores (.tStrbReg ro rb tr) .byte (x + o) ∧
    tLoads (.tLdrbImm imm5 rb tr) .byte (x + zext imm5) ∧ tStores (.tStrbImm imm5 rb tr) .byte (x + zext imm5) ∧
    (flag 0 (x + o) = false → tLoads (.tLdrhReg ro rb tr) .half (x + o) ∧ tLoads (.tLdrsh ro rb tr) .half (x + o) ∧
      tStores (.tStrhReg ro rb tr) .half (x + o)) ∧
    (flag 0 (x + 2 * zext imm5) = false → tLoads (.tLdrhImm imm5 rb tr) .half (x + 2 * zext imm5) ∧
      tStores (.tStrhImm imm5 rb tr) .half (x + 2 * zext imm5))

/-- A value stored is read back at the same address and size, in either byte order, and no other byte changes; a word and
a halfword read assemble their bytes little-endian or big-endian, with the low address bits ignored (20_memory.md R86,
R93, R96). -/
def Obligations.MemoryReadsBackInTheByteOrder : Prop :=
  (∀ (z : Size) (a v : Word) (s : State), Memory.wf s.mem = true →
    Memory.wf (writeMem z a v s).mem = true ∧
    readMem (writeMem z a v s) z a = v &&& (match z with | .byte => 0xFF | .half => 0xFFFF | .word => 0xFFFFFFFF) ∧
    (∀ x, x < (z.align a).toNat ∨ (z.align a).toNat + z.bytes ≤ x →
      memGet (writeMem z a v s).mem x = memGet s.mem x)) ∧
  (∀ (a : Word) (s : State),
    let byte := fun (x : Word) (k : Nat) => memGet s.mem (x.toNat + k)
    let w := a &&& 0xFFFFFFFC
    let h := a &&& 0xFFFFFFFE
    (s.pins.bigEndian = false →
      readMem s .word a = byte w 3 ++ byte w 2 ++ byte w 1 ++ byte w 0 ∧
      readMem s .half a = zext (byte h 1 ++ byte h 0)) ∧
    (s.pins.bigEndian = true →
      readMem s .word a = byte w 0 ++ byte w 1 ++ byte w 2 ++ byte w 3 ∧
      readMem s .half a = zext (byte h 0 ++ byte h 1)) ∧
    readMem s .byte a = zext (byte a 0))

/-! Load and store multiple (spec/44_arm_load_store_multiple.md). -/

/-- The registers of a list, in ascending order, each once, are exactly those whose bit is set, whatever the width of the
list: 16 bits, the 15 of LDM (2) and (3), the 8 of the Thumb multiples (R342, 30_encoding.md R156). -/
def Obligations.RegisterListsAscend : Prop :=
  ∀ (width : Nat) (list : BitVec width), width ≤ 16 → (listedRegs list).Pairwise (· < ·) ∧
    ∀ r : Reg, r ∈ listedRegs list ↔ list.getLsbD r.toNat = true

/-- LDM (1): the k-th listed register takes the word at start + 4k, the base is written back with W, and a listed r15 takes
the last word as LDR does, or is refused where LDR is, with CFGDISLTBIT HIGH too (D3); start and new base are as the
addressing mode says (R341, R342, R345). -/
def Obligations.LoadMultiple : Prop :=
  ∀ (c : Cond) (am : BlockMode) (w : Bool) (rn : Reg) (list : BitVec 16) (s : State), condPassed c s.cpsr = true →
    list ≠ 0 → rn ≠ 15 → (w = true → list.getLsbD rn.toNat = false) →
    let n := (listedRegs list).length
    let b := armReg s rn
    let size := BitVec.ofNat 32 (4 * n)
    let start := match am with
      | .ia => b | .ib => b + 4 | .da => b - size + 4 | .db => b - size
    let base := if w then some (match am with
      | .ia => b + size | .ib => b + size | .da => b - size | .db => b - size) else none
    let regs := (listedRegs list).filter (· != 15)
    let v := readMem s .word (start + (size - 4))
    let ends := fun target flags => Completes (exec (.ldm1 c am w rn list) s)
      (LoadsMany s (mode s) regs start rn base target flags s.userBankHazard)
    LoadsAnswered s start n →
    (list.getLsbD 15 = false → ends (s.pc + 4) s.cpsr) ∧
    (list.getLsbD 15 = true → s.pins.disLTBit = false → fld 0 2 v ≠ 0b10#2 →
      ends (v &&& 0xFFFFFFFE) (setBit s.cpsr 5 (flag 0 v))) ∧
    (list.getLsbD 15 = true → s.pins.disLTBit = false → fld 0 2 v = 0b10#2 →
      exec (.ldm1 c am w rn list) s = .refused .misalignedPc) ∧
    (list.getLsbD 15 = true → s.pins.disLTBit = true → exec (.ldm1 c am w rn list) s = .refused .disLTBitHigh)

/-- LDM (2) loads the User-mode registers and STM (2) stores them, in a mode with registers of its own (in User and System
mode they are refused, which UnpredictableFormsAreRefused says; log entry 42); the base is the current mode's and is not
written; the next instruction may not touch a banked register (R346, R351). -/
def Obligations.UserBankMultiples : Prop :=
  ∀ (c : Cond) (am : BlockMode) (rn : Reg) (list : BitVec 15) (list16 : BitVec 16) (s : State),
    condPassed c s.cpsr = true → rn ≠ 15 → mode s ≠ modeUser → mode s ≠ modeSys →
    (list ≠ 0 →
      let start := blockStart am (armReg s rn) (listedRegs list).length
      LoadsAnswered s start (listedRegs list).length →
      Completes (exec (.ldm2 c am false rn list) s)
        (LoadsMany s modeUser (listedRegs list) start rn none (s.pc + 4) s.cpsr true)) ∧
    (list16 ≠ 0 → Memory.wf s.mem = true →
      let start := blockStart am (armReg s rn) (listedRegs list16).length
      let words := (listedRegs list16).map fun r => if r = 15 then storedPc s else regAt s modeUser r
      StoresAnswered s words start →
      Completes (exec (.stm2 c am false rn list16) s) (StoresMany s 4 words start rn none true))

/-- LDM (3) loads the listed registers, then returns from the exception: the CPSR becomes the SPSR of the mode and the PC
the last word, with bit 0 cleared where the restored T is 1; refused without an SPSR (R347, 60_exceptions.md R585). -/
def Obligations.LoadMultipleReturnsFromException : Prop :=
  ∀ (c : Cond) (am : BlockMode) (w : Bool) (rn : Reg) (list : BitVec 15) (s : State), condPassed c s.cpsr = true →
    rn ≠ 15 → (w = true → list.getLsbD rn.toNat = false) →
    let n := (listedRegs list).length + 1
    let start := blockStart am (armReg s rn) n
    let base := if w then some (blockEnd am (armReg s rn) n) else none
    let v := readMem s .word (start + BitVec.ofNat 32 (4 * (n - 1)))
    let r := exec (.ldm3 c am w rn list) s
    (spsr s = none → r = .refused .noSpsr) ∧
    (∀ q, spsr s = some q → LoadsAnswered s start n →
      (flag 5 q = true → Completes r
        (LoadsMany s (mode s) (listedRegs list) start rn base (v &&& 0xFFFFFFFE) q s.userBankHazard)) ∧
      (flag 5 q = false → fld 0 2 v = 0#2 → Completes r
        (LoadsMany s (mode s) (listedRegs list) start rn base v q s.userBankHazard)) ∧
      (flag 5 q = false → fld 0 2 v ≠ 0#2 → r = .refused .misalignedPc))

/-- STM (1) stores the listed registers at ascending words from the start of the addressing mode and writes the base back
with W; r15 stores pc plus the implementation's offset. The value of a listed base that is written back and is not the
lowest is the free value of log entry 21; nothing is said of it but where it goes (R341 to R343, R350, R352). -/
def Obligations.StoreMultiple : Prop :=
  ∀ (c : Cond) (am : BlockMode) (w : Bool) (rn : Reg) (list : BitVec 16) (s : State), condPassed c s.cpsr = true →
    list ≠ 0 → rn ≠ 15 → Memory.wf s.mem = true →
    let regs := listedRegs list
    let start := blockStart am (armReg s rn) regs.length
    let base := if w then some (blockEnd am (armReg s rn) regs.length) else none
    let words := regs.map fun r =>
      if r = 15 then storedPc s
      else if w = true ∧ r = rn ∧ regs.head? ≠ some rn then Config.storedBase s.tick else regAt s (mode s) r
    StoresAnswered s words start →
    Completes (exec (.stm1 c am w rn list) s) (StoresMany s 4 words start rn base s.userBankHazard)

/-- A Data Abort at transfer `j` of a multiple transfer (LDM and STM in each form, LDRD and STRD, LDC and STC, PUSH, POP,
LDMIA and STMIA): the registers before it are loaded, or the words before it stored, nothing from it on is, the PC is not
loaded, the base has its old value even if it was loaded, a coprocessor has the words before it, and the Data Abort is
taken (R344, 43_arm_load_store.md R307, R325, 46_arm_coprocessor.md R405, R406, 60_exceptions.md R569, R570). A listed
base that a store stores is the free value of log entry 21. -/
def Obligations.AbortedMultipleKeepsWhatCameBefore : Prop :=
  ∀ (c : Cond) (am : BlockMode) (p u n w r : Bool) (idx : Index) (off3 : Offset3) (rn rd : Reg) (rb : LowReg)
    (list : BitVec 16) (list15 : BitVec 15) (list8 : BitVec 8) (crd cp : BitVec 4) (offset8 : BitVec 8)
    (first second : Word) (more : List Word) (j : Nat) (s : State), Memory.wf s.mem = true →
    let at_ := fun (start : Word) (k : Nat) => start + BitVec.ofNat 32 (4 * k)
    let loads := fun i (m : ModeBits) (regs : List Reg) (start : Word) (base : Reg) cops =>
      LoadsAnswered s start j →
      dataAnswer (loadsSeen s start j) (dataAccess s false .word false false (at_ start j)) 0 = .abort →
      let isBase := fun q : Reg => base != 15 && bankIndex m q == bankIndex (mode s) base
      Completes (exec i s) fun t => MemKept s t ∧
        (∀ k, k < j → ∀ h : k < regs.length, isBase regs[k] = false → bankIndex m regs[k] ≠ bankIndex modeAbt 14 →
          regAt t m regs[k] = readMem s .word (at_ start k)) ∧
        AbortsData s (((regs.take j).filter fun q => !isBase q).map fun q => (m, q)) s.dbg cops t
    let stores := fun i (words : List Word) (start : Word) cops => ∀ h : j < words.length,
      StoresAnswered s (words.take j) start →
      dataAnswer (storesSeen s (words.take j) start) (dataAccess s false .word true false (at_ start j)) words[j] =
        .abort →
      Completes (exec i s) fun t => StoredWords s t (words.take j) start ∧ AbortsData s [] s.dbg cops t
    let b := armReg s rn
    let a3 := singleAddr s idx u rn (offset3 s off3)
    let regs := listedRegs list
    let regs15 := listedRegs list15
    let low := listedRegs list8
    let pushed := low ++ (if r then [14] else [])
    let popped := low ++ (if r then [15] else [])
    let sp := regAt s (mode s) 13
    let x := armReg s (lowReg rb)
    let start5 := if p then (if u then b + 4 * zext offset8 else b - 4 * zext offset8) else b
    let after := fun i sent =>
      advancePort cp [{ instruction := encodeArm i, priv := mode s != modeUser, sent := sent }] s.cops
    (condPassed c s.cpsr = true → rn ≠ 15 →
      (list ≠ 0 →
        ((w = true → list.getLsbD rn.toNat = false) → j < regs.length →
          loads (.ldm1 c am w rn list) (mode s) regs (blockStart am b regs.length) rn s.cops) ∧
        stores (.stm1 c am w rn list) (storedWords s (mode s) w rn regs) (blockStart am b regs.length) s.cops ∧
        (mode s ≠ modeUser → mode s ≠ modeSys → stores (.stm2 c am false rn list)
          (storedWords s modeUser false rn regs) (blockStart am b regs.length) s.cops)) ∧
      (list15 ≠ 0 → mode s ≠ modeUser → mode s ≠ modeSys → j < regs15.length →
        loads (.ldm2 c am false rn list15) modeUser regs15 (blockStart am b regs15.length) rn s.cops) ∧
      ((w = true → list15.getLsbD rn.toNat = false) → spsr s ≠ none → j < regs15.length + 1 →
        loads (.ldm3 c am w rn list15) (mode s) (regs15 ++ [15]) (blockStart am b (regs15.length + 1)) rn s.cops)) ∧
    (condPassed c s.cpsr = true → offset3Sbz off3 = true →
      loadStoreAllowed idx rn rd (offset3Reg off3) false = true → fld 0 3 a3 = 0#3 →
      (pairAllowed idx rn rd (offset3Reg off3) = true → j < 2 →
        loads (.ldrd c u idx rn rd off3) (mode s) [rd, rd + 1] a3 rn s.cops) ∧
      (pairAllowed idx rn rd none = true →
        stores (.strd c u idx rn rd off3) [armReg s rd, armReg s (rd + 1)] a3 s.cops)) ∧
    (condPassed c s.cpsr = true → cp ≠ 14 → (p || u || w) = true → (w = true → rn ≠ 15) → more.length < 2 ^ 30 →
      copAnswer s cp = .accept first second more →
      (j < more.length + 1 → ∀ i ∈ [Instr.ldc c p u n w rn crd cp offset8, .ldc2 p u n w rn crd cp offset8],
        loads i (mode s) [] start5 15 (after i ((List.range j).map fun k => readMem s .word (at_ start5 k)))) ∧
      (∀ i ∈ [Instr.stc c p u n w rn crd cp offset8, .stc2 p u n w rn crd cp offset8],
        stores i (first :: more) start5 (after i []))) ∧
    (j < popped.length → loads (.tPop r list8) (mode s) popped sp 13 s.cops) ∧
    stores (.tPush r list8) (pushed.map fun q => regAt s (mode s) q) (sp - BitVec.ofNat 32 (4 * pushed.length)) s.cops ∧
    (list8.getLsbD rb.toNat = false → j < low.length →
      loads (.tLdmia rb list8) (mode s) low x (lowReg rb) s.cops) ∧
    (list8 ≠ 0 → stores (.tStmia rb list8) (low.map fun q =>
      if q = lowReg rb ∧ low.head? ≠ some (lowReg rb) then Config.storedBase s.tick else armReg s q) x s.cops)

/-! Status registers (spec/45_arm_status_swi_bkpt.md). -/

/-- MRS copies the CPSR, or the SPSR of a mode that has one, to a register; the SPSR of User or System mode and r15 are
refused (R371). -/
def Obligations.MrsReadsAStatusRegister : Prop :=
  ∀ (c : Cond) (r : Bool) (rd : Reg) (s : State), condPassed c s.cpsr = true →
    exec (.mrs c r 15 15 0 0) s = .refused .r15Operand ∧
    (rd ≠ 15 →
      Completes (exec (.mrs c false 15 rd 0 0) s) (WritesReg s 4 rd s.cpsr s.cpsr) ∧
      (∀ q, spsr s = some q → Completes (exec (.mrs c true 15 rd 0 0) s) (WritesReg s 4 rd q s.cpsr)) ∧
      (mode s = modeUser ∨ mode s = modeSys → exec (.mrs c true 15 rd 0 0) s = .refused .noSpsr))

/-- MSR from a register or an immediate (R372, R373): the bytes of the field mask, but in User mode only the flags byte of
the CPSR; a CPSR write that would change T, an empty mask and a missing SPSR are refused. Writing the SPSR writes that
of the current mode and no other. -/
def Obligations.MsrWritesTheSelectedBytes : Prop :=
  ∀ (c : Cond) (mask rot : BitVec 4) (imm8 : BitVec 8) (rm : Reg) (s : State), condPassed c s.cpsr = true → rm ≠ 15 →
    let imm := (zext imm8).rotateRight (2 * rot.toNat)
    let selected := fun k => flag (k / 8) mask && (mode s != modeUser || decide (24 ≤ k))
    (mask = 0 → ∀ r, exec (.msrReg c r mask 15 0 rm) s = .refused .msrNoFields ∧
      exec (.msrImm c r mask 15 rot imm8) s = .refused .msrNoFields) ∧
    (mask ≠ 0 → ∀ p ∈ [(exec (.msrReg c false mask 15 0 rm) s, armReg s rm),
        (exec (.msrImm c false mask 15 rot imm8) s, imm)],
      ∀ new : Word, (∀ k, k < 32 → flag k new = if selected k then flag k p.2 else flag k s.cpsr) →
        (flag 5 new = flag 5 s.cpsr → Completes p.1 (WritesFlags s 4 new)) ∧
        (flag 5 new ≠ flag 5 s.cpsr → p.1 = .refused .msrChangesT)) ∧
    (mask ≠ 0 → ∀ p ∈ [(exec (.msrReg c true mask 15 0 rm) s, armReg s rm),
        (exec (.msrImm c true mask 15 rot imm8) s, imm)],
      (spsr s = none → p.1 = .refused .noSpsr) ∧
      (∀ q new : Word, spsr s = some q → (∀ k, k < 32 → flag k new = if flag (k / 8) mask then flag k p.2 else flag k q) →
        Completes p.1 fun t => spsrAt t (mode s) = some new ∧ (∀ m, m ≠ mode s → spsrAt t m = spsrAt s m) ∧
          RegsKept s t [] ∧ t.cpsr = s.cpsr ∧ t.pc = s.pc + 4 ∧ OutsideKept s t ∧ t.dbg = s.dbg ∧
          t.chainOut = s.chainOut ∧ t.cops = s.cops ∧ MemKept s t))

/-- No instruction executed in User mode changes the mode, I or F, or an SPSR, but by entering an exception
(60_exceptions.md R591). -/
def Obligations.UserModeLeavesOnlyByException : Prop :=
  ∀ (i : Instr) (s t : State), mode s = modeUser → s.vectorEntered = none → exec i s = .next t →
    t.vectorEntered ≠ none ∨
      (mode t = modeUser ∧ psrI t.cpsr = psrI s.cpsr ∧ psrF t.cpsr = psrF s.cpsr ∧ SpsrsKept s t)

/-! Coprocessors (spec/46_arm_coprocessor.md). -/

/-- A coprocessor instruction for a coprocessor that does not accept it takes the undefined instruction trap, and while
the coprocessor busy-waits it only leaves the PC where it is; the coprocessor's answer is used up. Coprocessor 14 is
apart. Whatever the registers are: the forms of U24 too (R391, R394, R395, R397, R408; log entry 51). First the ports: a
coprocessor with none is absent, one with a port answers the head of its list, and once the list is empty the port's lasting
answer; the answer is used up, the messages are added to what the port received, and no other port changes (R398; log
entry 16). -/
def Obligations.UnacceptedCoprocessorInstructionsTrapOrWait : Prop :=
  (∀ (cp : BitVec 4) (received : List CopMessage) (s : State),
    ((∀ q ∈ s.cops, q.num ≠ cp) → copAnswer s cp = .absent ∧ advancePort cp received s.cops = s.cops) ∧
    (∀ before p after, s.cops = before ++ p :: after → (∀ q ∈ before, q.num ≠ cp) → p.num = cp →
      (p.answers = [] → copAnswer s cp = p.rest) ∧
      (∀ answer answers, p.answers = answer :: answers → copAnswer s cp = answer) ∧
      advancePort cp received s.cops =
        before ++ { p with answers := p.answers.tail, received := p.received ++ received } :: after)) ∧
  ∀ (c : Cond) (p u n w : Bool) (rn rd : Reg) (op1 crn crd cp crm opc : BitVec 4) (op1' op2 : BitVec 3)
    (offset8 : BitVec 8) (s : State), condPassed c s.cpsr = true → cp ≠ 14 →
    (p || u || w) = true →
    ∀ i ∈ [Instr.cdp c op1 crn crd cp op2 crm, .cdp2 op1 crn crd cp op2 crm, .mcr c op1' crn rd cp op2 crm,
        .mcr2 op1' crn rd cp op2 crm, .mrc c op1' crn rd cp op2 crm, .mrc2 op1' crn rd cp op2 crm,
        .mcrr c rn rd cp opc crm, .mrrc c rn rd cp opc crm, .ldc c p u n w rn crd cp offset8,
        .ldc2 p u n w rn crd cp offset8, .stc c p u n w rn crd cp offset8, .stc2 p u n w rn crd cp offset8],
      (copAnswer s cp = .absent →
        Completes (exec i s) (Enters { s with cops := advancePort cp [] s.cops } .undefined (s.pc + 4))) ∧
      (copAnswer s cp = .wait → exec i s = .next { s with cops := advancePort cp [] s.cops })

/-- An accepted CDP, MCR, MRC, MCRR or MRRC (and the forms with 2): the coprocessor receives the instruction word, the
privilege and the words sent; MRC writes a register, or with r15 the four flags; MRRC writes two; what MCR sends for
r15 is the free value of log entry 22 (R396, R400 to R404, R408). -/
def Obligations.AcceptedCoprocessorInstructionsExchangeWords : Prop :=
  ∀ (c : Cond) (rn rd : Reg) (op1 crn crd cp crm opc : BitVec 4) (op1' op2 : BitVec 3) (first second : Word)
    (more : List Word) (s : State), condPassed c s.cpsr = true → cp ≠ 14 → copAnswer s cp = .accept first second more →
    let after := fun i sent =>
      { s with cops := advancePort cp [{ instruction := encodeArm i, priv := mode s != modeUser, sent := sent }] s.cops }
    (∀ i ∈ [Instr.cdp c op1 crn crd cp op2 crm, .cdp2 op1 crn crd cp op2 crm],
      Completes (exec i s) (WritesFlags (after i []) 4 s.cpsr)) ∧
    (∀ i ∈ [Instr.mcr c op1' crn rd cp op2 crm, .mcr2 op1' crn rd cp op2 crm],
      Completes (exec i s) (WritesFlags (after i [if rd = 15 then Config.sentPc s.tick else armReg s rd]) 4 s.cpsr)) ∧
    (∀ i ∈ [Instr.mrc c op1' crn rd cp op2 crm, .mrc2 op1' crn rd cp op2 crm],
      (rd ≠ 15 → Completes (exec i s) (WritesReg (after i []) 4 rd first s.cpsr)) ∧
      (rd = 15 → Completes (exec i s) (WritesFlags (after i []) 4
        (setNZCV s.cpsr (flag 31 first) (flag 30 first) (flag 29 first) (flag 28 first))))) ∧
    (rd ≠ 15 → rn ≠ 15 →
      Completes (exec (.mcrr c rn rd cp opc crm) s)
        (WritesFlags (after (.mcrr c rn rd cp opc crm) [armReg s rd, armReg s rn]) 4 s.cpsr) ∧
      (rd ≠ rn → Completes (exec (.mrrc c rn rd cp opc crm) s)
        (WritesPair (after (.mrrc c rn rd cp opc crm) []) 4 rd rn first second s.cpsr)))

/-- An accepted LDC gives the coprocessor the words at ascending addresses, as many as it says, and STC stores the words it
gives; the base is written back with W (R405 to R408). -/
def Obligations.CoprocessorLoadsAndStores : Prop :=
  ∀ (c : Cond) (p u n w : Bool) (rn : Reg) (crd cp : BitVec 4) (offset8 : BitVec 8) (first second : Word)
    (more : List Word) (s : State), condPassed c s.cpsr = true → cp ≠ 14 → (p || u || w) = true →
    (w = true → rn ≠ 15) → more.length < 2 ^ 30 → copAnswer s cp = .accept first second more →
    let offset := 4 * zext offset8
    let moved := if u then armReg s rn + offset else armReg s rn - offset
    let start := if p then moved else armReg s rn
    let base := if w then some moved else none
    let after := fun i sent =>
      { s with cops := advancePort cp [{ instruction := encodeArm i, priv := mode s != modeUser, sent := sent }] s.cops }
    (LoadsAnswered s start (more.length + 1) →
      ∀ i ∈ [Instr.ldc c p u n w rn crd cp offset8, .ldc2 p u n w rn crd cp offset8],
      Completes (exec i s) (LoadsMany
        (after i ((List.range (more.length + 1)).map fun k => readMem s .word (start + BitVec.ofNat 32 (4 * k))))
        (mode s) [] start rn base (s.pc + 4) s.cpsr s.userBankHazard)) ∧
    (Memory.wf s.mem = true → StoresAnswered s (first :: more) start →
      ∀ i ∈ [Instr.stc c p u n w rn crd cp offset8, .stc2 p u n w rn crd cp offset8],
      Completes (exec i s) (StoresMany (after i []) 4 (first :: more) start rn base s.userBankHazard))

/-- The comms channel (R415 to R420): MRC from c0 reads the version, W and R; MRC from c1 reads the data while R is set, a
free value while it is clear (log entry 20), and clears R; MRC from c2 reads DbgAbt; each to a register, or with r15 to the
flags. MCR to c1 sets W and, while W was clear, the data (a free value else); MCR to c2 writes DbgAbt from bit 0; MCR to
c0 is refused, as is any other coprocessor 14 instruction, the forms with 2 among them (R408, R420, U22). On the debugger's
side, scan chain 2 writes the data and sets R, and reads the other data and clears W; any access to it releases the
comparators (10_state.md R63, R67; 65_debug_interface.md R709). -/
def Obligations.CommsChannelRegisters : Prop :=
  ∀ (c : Cond) (rd : Reg) (s : State),
    let d := s.dbg
    (condPassed c s.cpsr = true →
      let reads := fun (crn : BitVec 4) (v : Word) (s' : State) =>
        (rd ≠ 15 → Completes (exec (.mrc c 0 crn rd 14 0 0) s) (WritesReg s' 4 rd v s.cpsr)) ∧
        (rd = 15 → Completes (exec (.mrc c 0 crn rd 14 0 0) s)
          (WritesFlags s' 4 (setNZCV s.cpsr (flag 31 v) (flag 30 v) (flag 29 v) (flag 28 v))))
      let writes := fun (crn : BitVec 4) (s' : State) =>
        Completes (exec (.mcr c 0 crn rd 14 0 0) s) (WritesFlags s' 4 s.cpsr)
      let v := if rd = 15 then Config.sentPc s.tick else armReg s rd
      reads 0 (s.pins.commsVersion ++ 0#26 ++ BitVec.ofBool d.commsW ++ BitVec.ofBool d.commsR) s ∧
      (d.commsR = true → reads 1 d.commsRead { s with dbg := { d with commsR := false } }) ∧
      (d.commsR = false → ∃ free, reads 1 free { s with dbg := { d with commsR := false } }) ∧
      reads 2 (if d.dbgAbt then 1 else 0) s ∧
      (d.commsW = false → writes 1 { s with dbg := { d with commsWrite := v, commsW := true } }) ∧
      (d.commsW = true → ∃ free, writes 1 { s with dbg := { d with commsWrite := free, commsW := true } }) ∧
      writes 2 { s with dbg := { d with dbgAbt := flag 0 v } } ∧
      exec (.mcr c 0 0 rd 14 0 0) s = .refused .commsControlWrite ∧
      (∀ op1 op2 crn crm, op1 ≠ 0 ∨ op2 ≠ 0 ∨ crm ≠ 0 ∨ 2 < crn →
        exec (.mrc c op1 crn rd 14 op2 crm) s = .refused .cp14Encoding ∧
        exec (.mcr c op1 crn rd 14 op2 crm) s = .refused .cp14Encoding) ∧
      (∀ op1 crn crd op2 crm opc rn p u n w offset8,
        ∀ i ∈ [Instr.cdp c op1 crn crd 14 op2 crm, .mcrr c rn rd 14 opc crm, .mrrc c rn rd 14 opc crm,
          .ldc c p u n w rn crd 14 offset8, .stc c p u n w rn crd 14 offset8], exec i s = .refused .cp14Encoding)) ∧
    (∀ op1 op1' crn crd op2 crm p u n w rn offset8,
      ∀ i ∈ [Instr.cdp2 op1 crn crd 14 op2 crm, .mcr2 op1' crn rd 14 op2 crm, .mrc2 op1' crn rd 14 op2 crm,
        .ldc2 p u n w rn crd 14 offset8, .stc2 p u n w rn crd 14 offset8], exec i s = .refused .cp14Encoding) ∧
    (d.tapInstruction = 0b1100 → d.scanChain = 2 → ∀ v : Word,
      let scan := fun (bits : BitVec 38) (d' : DebugUnit) (out : BitVec 38) =>
        applyEvent (.tapData bits) s = .next { s with dbg := { d' with held := false, chain2 := out } }
      scan (0b100101#6 ++ v) { d with commsRead := v, commsR := true } (0b100101#6 ++ v) ∧
      scan (0b000101#6 ++ v) { d with commsW := false } (0b000101#6 ++ d.commsWrite))

/-! Thumb data processing (spec/47_thumb_data_processing.md). -/

/-- The shifts, by an immediate or by a register, of low registers: the result of the shifter, N and Z of it, C of the
shifter, V as before (R432 to R434, R445 to R447, R450). -/
def Obligations.ThumbShifts : Prop :=
  ∀ (imm5 : BitVec 5) (rs rd : LowReg) (s : State),
    let k := psrC s.cpsr
    let src := armReg s (lowReg rs)
    let dst := armReg s (lowReg rd)
    let amount := fld 0 8 src
    let ends := fun i (r : Shifted) =>
      Completes (exec i s) (WritesReg s 2 (lowReg rd) r.value (setLogical s.cpsr r.value r.carry))
    ends (.tLslImm imm5 rs rd) (shiftByImm k .lsl src imm5) ∧ ends (.tLsrImm imm5 rs rd) (shiftByImm k .lsr src imm5) ∧
    ends (.tAsrImm imm5 rs rd) (shiftByImm k .asr src imm5) ∧
    ends (.tLslReg rs rd) (shiftByReg k .lsl dst amount) ∧ ends (.tLsrReg rs rd) (shiftByReg k .lsr dst amount) ∧
    ends (.tAsrReg rs rd) (shiftByReg k .asr dst amount) ∧ ends (.tRor rs rd) (shiftByReg k .ror dst amount)

/-- The additions and subtractions of low registers and immediates write the sum or difference and all four flags; CMP
and CMN write only the flags (R435 to R438, R440 to R442, R448, R449, R452 to R454). -/
def Obligations.ThumbArithmetic : Prop :=
  ∀ (rn rs rd : LowReg) (imm3 : BitVec 3) (imm8 : BitVec 8) (s : State),
    let n := armReg s (lowReg rn)
    let a := armReg s (lowReg rs)
    let d := armReg s (lowReg rd)
    let carry : Word := if psrC s.cpsr then 1 else 0
    let ends := fun i v x y k => Completes (exec i s)
      (WritesReg s 2 (lowReg rd) v (setArithmetic s.cpsr (addWithCarry x y k)))
    let tests := fun i x y k => Completes (exec i s) (WritesFlags s 2 (setArithmetic s.cpsr (addWithCarry x y k)))
    ends (.tAddReg rn rs rd) (a + n) a n false ∧ ends (.tSubReg rn rs rd) (a - n) a (~~~n) true ∧
    ends (.tAddImm3 imm3 rs rd) (a + zext imm3) a (zext imm3) false ∧
    ends (.tSubImm3 imm3 rs rd) (a - zext imm3) a (~~~zext imm3) true ∧
    ends (.tAddImm8 rd imm8) (d + zext imm8) d (zext imm8) false ∧
    ends (.tSubImm8 rd imm8) (d - zext imm8) d (~~~zext imm8) true ∧
    ends (.tAdc rs rd) (d + a + carry) d a (psrC s.cpsr) ∧
    ends (.tSbc rs rd) (d - a - (1 - carry)) d (~~~a) (psrC s.cpsr) ∧
    ends (.tNeg rs rd) (0 - a) 0 (~~~a) true ∧
    tests (.tCmpImm rd imm8) d (~~~zext imm8) true ∧ tests (.tCmpReg rs rd) d (~~~a) true ∧
    tests (.tCmn rs rd) d a false

/-- The logical operations, MOV of an immediate and MUL of low registers write the result and its N and Z, and leave C and
V; TST writes only N and Z; MUL of a register into itself is refused (R439, R443, R444, R451, R455 to R458). -/
def Obligations.ThumbLogical : Prop :=
  ∀ (rs rd : LowReg) (imm8 : BitVec 8) (s : State),
    let a := armReg s (lowReg rs)
    let d := armReg s (lowReg rd)
    let ends := fun i v => Completes (exec i s) (WritesReg s 2 (lowReg rd) v (setResultNZ s.cpsr v))
    ends (.tMovImm rd imm8) (zext imm8) ∧ ends (.tAnd rs rd) (d &&& a) ∧ ends (.tEor rs rd) (d ^^^ a) ∧
    ends (.tOrr rs rd) (d ||| a) ∧ ends (.tBic rs rd) (d &&& ~~~a) ∧ ends (.tMvn rs rd) (~~~a) ∧
    (rd ≠ rs → ends (.tMul rs rd) (d * a)) ∧ exec (.tMul rd rd) s = .refused .multiplyRegisters ∧
    Completes (exec (.tTst rs rd) s) (WritesFlags s 2 (setResultNZ s.cpsr (d &&& a)))

/-- The high-register forms of ADD and MOV change no flag, and with r15 as destination branch without leaving Thumb state;
CMP writes the flags; two low registers, and CMP with r15 first, are refused. ADD to a register from the PC (bits 1:0
cleared) or the SP, and to and from the SP (R470 to R477). A register r15 reads as pc + 4 (10_state.md R41). -/
def Obligations.ThumbHighRegistersAndAddresses : Prop :=
  (∀ (r : Reg) (s : State), thumbReg s r = if r = 15 then s.pc + 4 else regAt s (mode s) r) ∧
  ∀ (h1 h2 : Bool) (rs rd : LowReg) (imm7 : BitVec 7) (imm8 : BitVec 8) (s : State),
    let d : Reg := BitVec.ofBool h1 ++ rd
    let m : Reg := BitVec.ofBool h2 ++ rs
    let x := thumbReg s d
    let y := thumbReg s m
    let sp := regAt s (mode s) 13
    let goesTo := fun (i : Instr) (v : Word) =>
      (d ≠ 15 → Completes (exec i s) (WritesReg s 2 d v s.cpsr)) ∧
      (d = 15 → Completes (exec i s) (Branches s (v &&& 0xFFFFFFFE) s.cpsr none))
    ((h1 || h2) = true →
      goesTo (.tAddHigh h1 h2 rs rd) (x + y) ∧ goesTo (.tMovHigh h1 h2 rs rd) y ∧
      (d ≠ 15 → Completes (exec (.tCmpHigh h1 h2 rs rd) s)
        (WritesFlags s 2 (setArithmetic s.cpsr (addWithCarry x (~~~y) true)))) ∧
      (d = 15 → exec (.tCmpHigh h1 h2 rs rd) s = .refused .thumbHighForm)) ∧
    ((h1 || h2) = false →
      ∀ i ∈ [Instr.tAddHigh h1 h2 rs rd, .tMovHigh h1 h2 rs rd, .tCmpHigh h1 h2 rs rd],
        exec i s = .refused .thumbHighForm) ∧
    Completes (exec (.tAddPc rd imm8) s)
      (WritesReg s 2 (lowReg rd) (((s.pc + 4) &&& 0xFFFFFFFC) + 4 * zext imm8) s.cpsr) ∧
    Completes (exec (.tAddSp rd imm8) s) (WritesReg s 2 (lowReg rd) (sp + 4 * zext imm8) s.cpsr) ∧
    Completes (exec (.tIncSp imm7) s) (WritesReg s 2 13 (sp + 4 * zext imm7) s.cpsr) ∧
    Completes (exec (.tDecSp imm7) s) (WritesReg s 2 13 (sp - 4 * zext imm7) s.cpsr)

/-! Thumb branches, loads and stores (spec/48_thumb_branch_load_store.md). -/

/-- B, on a condition or always, goes to pc + 4 plus the sign-extended offset in halfwords (R520, R521). The halves of BL and
BLX: the first puts pc + 4 plus the high offset in r14; the second branches to r14 plus the low offset, leaving its own
return address with bit 0 set in r14; that of BLX enters ARM state at a word address (R530 to R532). -/
def Obligations.ThumbBranchesToALabel : Prop :=
  ∀ (c : Cond) (simm8 : BitVec 8) (simm11 offset11 : BitVec 11) (offset10 : BitVec 10) (s : State),
    (condPassed c s.cpsr = true → Completes (exec (.tBCond c simm8) s)
      (Branches s (BitVec.ofInt 32 (s.pc.toInt + 4 + 2 * simm8.toInt)) s.cpsr none)) ∧
    Completes (exec (.tB simm11) s) (Branches s (BitVec.ofInt 32 (s.pc.toInt + 4 + 2 * simm11.toInt)) s.cpsr none) ∧
    let lr := regAt s (mode s) 14
    Completes (exec (.tBlHigh offset11) s)
      (WritesReg s 2 14 (BitVec.ofInt 32 (s.pc.toInt + 4 + 4096 * offset11.toInt)) s.cpsr) ∧
    Completes (exec (.tBlLow offset11) s)
      (Branches s ((lr + 2 * zext offset11) &&& 0xFFFFFFFE) s.cpsr (some ((s.pc + 2) ||| 1))) ∧
    Completes (exec (.tBlxLow offset10) s)
      (Branches s ((lr + 4 * zext offset10) &&& 0xFFFFFFFC) (setBit s.cpsr 5 false) (some ((s.pc + 2) ||| 1)))

/-- BL as a whole: its two halves in order go to the address of the first plus 4 plus the 22-bit signed offset in
halfwords, and r14 holds the address after the second with bit 0 set (R530, R532). -/
def Obligations.ThumbLongBranchPair : Prop :=
  ∀ (hi lo : BitVec 11) (s : State), fld 0 1 s.pc = 0#1 →
    Completes (match exec (.tBlHigh hi) s with
        | .next t => exec (.tBlLow lo) t
        | .fault r => .fault r
        | .refused r => .refused r)
      (Branches s (BitVec.ofInt 32 (s.pc.toInt + 4 + 2 * (hi ++ lo).toInt)) s.cpsr (some ((s.pc + 4) ||| 1)))

/-- The Thumb single loads, at each address form: the word rotated as in ARM state, the halfword, the byte, zero- or
sign-extended (R490, R491, R495 to R499, R501, R503, R505, R507). A halfword at an odd address is refused. -/
def Obligations.ThumbLoads : Prop :=
  ∀ (ro rb rd : LowReg) (imm5 : BitVec 5) (imm8 : BitVec 8) (s : State),
    let x := armReg s (lowReg rb)
    let o := armReg s (lowReg ro)
    let word := fun a : Word => (readMem s .word a).rotateRight (8 * (fld 0 2 a).toNat)
    let ends := fun i z (a : Word) v => dataAnswer s (dataAccess s false z false false a) 0 = .ok →
      Completes (exec i s) (Loads s 2 (lowReg rd) v 0 none)
    let half := fun i (a : Word) v => (flag 0 a = false → ends i .half a v) ∧
      (flag 0 a = true → exec i s = .refused .unalignedAccess)
    let pcRel := ((s.pc + 4) &&& 0xFFFFFFFC) + 4 * zext imm8
    let spRel := regAt s (mode s) 13 + 4 * zext imm8
    ends (.tLdrPc rd imm8) .word pcRel (readMem s .word pcRel) ∧
    ends (.tLdrSp rd imm8) .word spRel (word spRel) ∧
    ends (.tLdrReg ro rb rd) .word (x + o) (word (x + o)) ∧
    ends (.tLdrImm imm5 rb rd) .word (x + 4 * zext imm5) (word (x + 4 * zext imm5)) ∧
    ends (.tLdrbReg ro rb rd) .byte (x + o) (zext (memGet s.mem (x + o).toNat)) ∧
    ends (.tLdrbImm imm5 rb rd) .byte (x + zext imm5) (zext (memGet s.mem (x + zext imm5).toNat)) ∧
    ends (.tLdrsb ro rb rd) .byte (x + o) ((memGet s.mem (x + o).toNat).signExtend 32) ∧
    half (.tLdrhReg ro rb rd) (x + o) (readMem s .half (x + o)) ∧
    half (.tLdrhImm imm5 rb rd) (x + 2 * zext imm5) (readMem s .half (x + 2 * zext imm5)) ∧
    half (.tLdrsh ro rb rd) (x + o) ((fld 0 16 (readMem s .half (x + o))).signExtend 32)

/-- The Thumb single stores, at each address form (R490, R492 to R494, R500, R502, R504, R506). A halfword at an odd
address is refused; a store that the memory system ignores changes no memory (20_memory.md R112). -/
def Obligations.ThumbStores : Prop :=
  ∀ (ro rb rd : LowReg) (imm5 : BitVec 5) (imm8 : BitVec 8) (s : State), Memory.wf s.mem = true →
    let x := armReg s (lowReg rb)
    let o := armReg s (lowReg ro)
    let v := armReg s (lowReg rd)
    let ends := fun i z (a : Word) =>
      (dataAnswer s (dataAccess s false z true false a) v = .ok → Completes (exec i s) (Stores s 2 z a v 0 none)) ∧
      (dataAnswer s (dataAccess s false z true false a) v = .ignored → Completes (exec i s) (IgnoresStore s 2 0 none))
    let half := fun i (a : Word) => (flag 0 a = false → ends i .half a) ∧
      (flag 0 a = true → exec i s = .refused .unalignedAccess)
    ends (.tStrReg ro rb rd) .word (x + o) ∧ ends (.tStrImm imm5 rb rd) .word (x + 4 * zext imm5) ∧
    ends (.tStrSp rd imm8) .word (regAt s (mode s) 13 + 4 * zext imm8) ∧
    ends (.tStrbReg ro rb rd) .byte (x + o) ∧ ends (.tStrbImm imm5 rb rd) .byte (x + zext imm5) ∧
    half (.tStrhReg ro rb rd) (x + o) ∧ half (.tStrhImm imm5 rb rd) (x + 2 * zext imm5)

/-- PUSH, POP, STMIA and LDMIA: ascending words, the base moved past them, POP with r15 branching as a load to the PC. An
empty list and LDMIA with its base listed are refused; the value of a listed base that STMIA does not store first is
the free value of log entry 21 (R510 to R513); with CFGDISLTBIT HIGH a loaded PC is refused (D3). -/
def Obligations.ThumbMultiples : Prop :=
  ∀ (r : Bool) (rb : LowReg) (list : BitVec 8) (s : State),
    let sp := regAt s (mode s) 13
    let b := armReg s (lowReg rb)
    let regs := listedRegs list
    let size := BitVec.ofNat 32 (4 * regs.length)
    let pushed := regs ++ (if r then [14] else [])
    let bytes := BitVec.ofNat 32 (4 * pushed.length)
    let v := readMem s .word (sp + (bytes - 4))
    (r = false ∧ list = 0 → exec (.tPush r list) s = .refused .emptyRegisterList ∧
      exec (.tPop r list) s = .refused .emptyRegisterList) ∧
    (list = 0 → exec (.tStmia rb list) s = .refused .emptyRegisterList ∧
      exec (.tLdmia rb list) s = .refused .emptyRegisterList) ∧
    (r = true ∨ list ≠ 0 → Memory.wf s.mem = true →
      StoresAnswered s (pushed.map fun q => regAt s (mode s) q) (sp - bytes) →
      Completes (exec (.tPush r list) s) (StoresMany s 2 (pushed.map fun q => regAt s (mode s) q) (sp - bytes) 13
        (some (sp - bytes)) s.userBankHazard)) ∧
    (r = true ∨ list ≠ 0 → LoadsAnswered s sp pushed.length →
      let ends := fun target flags => Completes (exec (.tPop r list) s)
        (LoadsMany s (mode s) regs sp 13 (some (sp + bytes)) target flags s.userBankHazard)
      (r = false → ends (s.pc + 2) s.cpsr) ∧
      (r = true → s.pins.disLTBit = false → fld 0 2 v ≠ 0b10#2 → ends (v &&& 0xFFFFFFFE) (setBit s.cpsr 5 (flag 0 v))) ∧
      (r = true → s.pins.disLTBit = true → exec (.tPop r list) s = .refused .disLTBitHigh) ∧
      (r = true → s.pins.disLTBit = false → fld 0 2 v = 0b10#2 → exec (.tPop r list) s = .refused .misalignedPc)) ∧
    (list ≠ 0 → Memory.wf s.mem = true →
      let words := regs.map fun q =>
        if q = lowReg rb ∧ regs.head? ≠ some (lowReg rb) then Config.storedBase s.tick else armReg s q
      StoresAnswered s words b →
      Completes (exec (.tStmia rb list) s) (StoresMany s 2 words b (lowReg rb) (some (b + size)) s.userBankHazard)) ∧
    (list ≠ 0 → list.getLsbD rb.toNat = false → LoadsAnswered s b regs.length →
      Completes (exec (.tLdmia rb list) s)
        (LoadsMany s (mode s) regs b (lowReg rb) (some (b + size)) (s.pc + 2) s.cpsr s.userBankHazard)) ∧
    (list.getLsbD rb.toNat = true → exec (.tLdmia rb list) s = .refused .blockTransferForm)

/-! Forms that stop. -/

/-- Forms the spec calls UNPREDICTABLE without an effect are refused by name once the condition has passed (30_encoding.md
R150; 40_arm_data_processing.md R195; 41_arm_multiply_dsp.md R231; 43_arm_load_store.md R293, R294;
44_arm_load_store_multiple.md R340, R343, R346; 93_implementation_defined.md). -/
def Obligations.UnpredictableFormsAreRefused : Prop :=
  ∀ (c : Cond) (sf : Bool) (rn rd rs rm sbz : Reg) (sbo : BitVec 12) (kind : ShiftKind) (am : BlockMode)
    (list : BitVec 16) (list15 : BitVec 15) (w u : Bool) (idx : Index) (off : Offset2) (s : State),
    condPassed c s.cpsr = true →
    (rn = 15 ∨ rd = 15 ∨ rs = 15 ∨ rm = 15 →
      exec (.armAdd c sf rn rd (.shiftReg rs kind rm)) s = .refused .r15Operand) ∧
    (sbz ≠ 0 → exec (.armMov c sf sbz rd (.shiftImm 0 .lsl rm)) s = .refused .sbzSbo ∧
      exec (.mul c sf rd sbz rs rm) s = .refused .sbzSbo ∧ exec (.swp c rn rd sbz rm) s = .refused .sbzSbo ∧
      exec (.qadd c rn rd sbz rm) s = .refused .sbzSbo) ∧
    (sbo ≠ 0xFFF → exec (.bx c sbo rm) s = .refused .sbzSbo ∧ exec (.blxReg c sbo rm) s = .refused .sbzSbo) ∧
    (rd = 15 ∨ rs = 15 ∨ rm = 15 ∨ rd = rm → exec (.mul c sf rd 0 rs rm) s = .refused .multiplyRegisters ∧
      exec (.mla c sf rd rn rs rm) s = .refused .multiplyRegisters ∧
      exec (.umull c sf rd rn rs rm) s = .refused .multiplyRegisters) ∧
    (rn = 15 ∨ rn = rm ∨ rn = rd → exec (.swp c rn rd 0 rm) s = .refused .loadStoreRegisters ∧
      exec (.swpb c rn rd 0 rm) s = .refused .loadStoreRegisters) ∧
    (idx ≠ .offset ∧ (rn = 15 ∨ rd = rn ∨ offset2Reg off = some rn) →
      exec (.ldr c u idx rn rd off) s = .refused .loadStoreRegisters ∧
      exec (.str c u idx rn rd off) s = .refused .loadStoreRegisters) ∧
    (exec (.ldm1 c am w rn 0) s = .refused .emptyRegisterList ∧
      exec (.stm1 c am w rn 0) s = .refused .emptyRegisterList) ∧
    (list ≠ 0 → rn = 15 ∨ (w = true ∧ list.getLsbD rn.toNat = true) →
      exec (.ldm1 c am w rn list) s = .refused .blockTransferForm) ∧
    (list15 ≠ 0 → rn = 15 ∨ w = true ∨ mode s = modeUser ∨ mode s = modeSys →
      exec (.ldm2 c am w rn list15) s = .refused .blockTransferForm) ∧
    (list ≠ 0 → rn = 15 ∨ w = true ∨ mode s = modeUser ∨ mode s = modeSys →
      exec (.stm2 c am w rn list) s = .refused .blockTransferForm)

/-- The registers and should-be-zero fields that the rules of an instruction forbid, as UNPREDICTABLE, are refused by name
once the condition has passed (41_arm_multiply_dsp.md R231, R239; 40_arm_data_processing.md R195, R213;
43_arm_load_store.md R293, R294, R307, R325; 44_arm_load_store_multiple.md R343; 45_arm_status_swi_bkpt.md R371, R372;
46_arm_coprocessor.md R403 to R407, once the coprocessor accepts (log entry 51); 48_thumb_branch_load_store.md R522; 30_encoding.md R150). -/
def Obligations.ForbiddenRegistersAreRefused : Prop :=
  ∀ (c : Cond) (sf y x u n p : Bool) (rd rn rs rm : Reg) (cp opc crm mask crd : BitVec 4) (offset8 : BitVec 8) (idx : Index)
    (off : Offset2) (off3 : Offset3) (op2 : Operand2) (sbz3 : BitVec 3) (am : BlockMode) (list : BitVec 16)
    (list15 : BitVec 15) (first second : Word) (more : List Word) (s : State), condPassed c s.cpsr = true →
    let refused := fun (is : List Instr) why => ∀ i ∈ is, exec i s = .refused why
    let mode3 := [Instr.ldrh c u idx rn rd off3, .ldrsh c u idx rn rd off3, .ldrsb c u idx rn rd off3,
      .strh c u idx rn rd off3, .ldrd c u idx rn rd off3, .strd c u idx rn rd off3]
    (rd = 15 ∨ rn = 15 ∨ rs = 15 ∨ rm = 15 →
      refused [.mla c sf rd rn rs rm, .umull c sf rd rn rs rm, .umlal c sf rd rn rs rm, .smull c sf rd rn rs rm,
        .smlal c sf rd rn rs rm, .smlaXY c rd rn rs y x rm, .smlawY c rd rn rs y rm, .smlalXY c rd rn rs y x rm]
        .multiplyRegisters) ∧
    (rd = 15 ∨ rs = 15 ∨ rm = 15 →
      refused [.mul c sf rd 0 rs rm, .smulXY c rd 0 rs y x rm, .smulwY c rd 0 rs y rm] .multiplyRegisters) ∧
    (rd = rm → refused [.mul c sf rd 0 rs rm, .mla c sf rd rn rs rm] .multiplyRegisters) ∧
    (rd = rn ∨ rd = rm ∨ rn = rm → refused [.umull c sf rd rn rs rm, .umlal c sf rd rn rs rm, .smull c sf rd rn rs rm,
      .smlal c sf rd rn rs rm] .multiplyRegisters) ∧
    (rd = rn → refused [.smlalXY c rd rn rs y x rm] .multiplyRegisters) ∧
    (rn = 15 ∨ rd = 15 ∨ rm = 15 →
      refused [.qadd c rn rd 0 rm, .qsub c rn rd 0 rm, .qdadd c rn rd 0 rm, .qdsub c rn rd 0 rm] .multiplyRegisters ∧
      refused [.swp c rn rd 0 rm, .swpb c rn rd 0 rm] .loadStoreRegisters) ∧
    (rd = 15 ∨ rm = 15 → refused [.clz c 15 rd 15 rm] .r15Operand) ∧
    (refused [.mrs c sf 15 15 0 0, .msrReg c sf mask 15 0 15] .r15Operand) ∧
    (mask ≠ 15 → refused [.mrs c sf mask rd 0 0, .msrReg c sf 1 mask 0 rm, .msrImm c sf 1 mask 0 offset8,
      .clz c mask rd 15 rm] .sbzSbo) ∧
    (mask ≠ 0 →
      refused [.armTst c rn mask op2, .armTeq c rn mask op2, .armCmp c rn mask op2, .armCmn c rn mask op2,
        .armMov c sf mask rd op2, .armMvn c sf mask rd op2, .mul c sf rd mask rs rm, .smulXY c rd mask rs y x rm,
        .smulwY c rd mask rs y rm, .qadd c rn rd mask rm, .qsub c rn rd mask rm, .qdadd c rn rd mask rm,
        .qdsub c rn rd mask rm, .swp c rn rd mask rm, .swpb c rn rd mask rm, .mrs c sf 15 rd mask 0,
        .mrs c sf 15 rd 0 mask, .msrReg c sf 1 15 mask rm] .sbzSbo) ∧
    (sbz3 ≠ 0 → refused [.tBx rm sbz3, .tBlxReg rm sbz3] .sbzSbo) ∧
    (operand2Allowed [rn, rd] op2 = false →
      refused [.armAnd c sf rn rd op2, .armEor c sf rn rd op2, .armSub c sf rn rd op2, .armRsb c sf rn rd op2,
        .armAdd c sf rn rd op2, .armAdc c sf rn rd op2, .armSbc c sf rn rd op2, .armRsc c sf rn rd op2,
        .armOrr c sf rn rd op2, .armBic c sf rn rd op2] .r15Operand) ∧
    (operand2Allowed [rd] op2 = false → refused [.armMov c sf 0 rd op2, .armMvn c sf 0 rd op2] .r15Operand) ∧
    (operand2Allowed [rn] op2 = false → refused [.armTst c rn 0 op2, .armTeq c rn 0 op2, .armCmp c rn 0 op2,
      .armCmn c rn 0 op2] .r15Operand) ∧
    (list ≠ 0 → refused [.ldm1 c am sf 15 list, .stm1 c am sf 15 list] .blockTransferForm) ∧
    refused [.ldm3 c am sf 15 list15] .blockTransferForm ∧
    (list15.getLsbD rn.toNat = true → refused [.ldm3 c am true rn list15] .blockTransferForm) ∧
    (loadStoreAllowed idx rn rd (offset2Reg off) true = false →
      refused [.ldr c u idx rn rd off, .str c u idx rn rd off] .loadStoreRegisters) ∧
    (loadStoreAllowed idx rn rd (offset2Reg off) false = false →
      refused [.ldrb c u idx rn rd off, .strb c u idx rn rd off] .loadStoreRegisters) ∧
    (loadStoreAllowed .postIndexed rn rd (offset2Reg off) false = false →
      refused [.ldrt c u rn rd off, .ldrbt c u rn rd off, .strt c u rn rd off, .strbt c u rn rd off]
        .loadStoreRegisters) ∧
    (offset3Sbz off3 = false → refused mode3 .sbzSbo) ∧
    (offset3Sbz off3 = true → loadStoreAllowed idx rn rd (offset3Reg off3) false = false →
      refused mode3 .loadStoreRegisters) ∧
    (cp ≠ 14 → copAnswer s cp = .accept first second more →
      (rd = 15 ∨ rn = 15 → refused [.mcrr c rn rd cp opc crm, .mrrc c rn rd cp opc crm] .r15Operand) ∧
      (rd ≠ 15 → refused [.mrrc c rd rd cp opc crm] .mrrcSameRegister) ∧
      refused [.ldc c p u n true 15 crd cp offset8, .stc c p u n true 15 crd cp offset8,
        .ldc2 p u n true 15 crd cp offset8, .stc2 p u n true 15 crd cp offset8] .r15Operand)
end

