-- ==== Sys2Proof/Laws/State.lean ====
section
/-! SUPPORT. One lemma per field and state update, for `simp`: no later proof unfolds a record update. -/

set_option Elab.async false

namespace Sys2Proof.Machine

@[simp] theorem setCpsr_regs (v : Word) (s : State) : (setCpsr v s).regs = s.regs := rfl
@[simp] theorem setCpsr_pc (v : Word) (s : State) : (setCpsr v s).pc = s.pc := rfl
@[simp] theorem setCpsr_cpsr (v : Word) (s : State) : (setCpsr v s).cpsr = v := rfl
@[simp] theorem setCpsr_spsrFiq (v : Word) (s : State) : (setCpsr v s).spsrFiq = s.spsrFiq := rfl
@[simp] theorem setCpsr_spsrIrq (v : Word) (s : State) : (setCpsr v s).spsrIrq = s.spsrIrq := rfl
@[simp] theorem setCpsr_spsrSvc (v : Word) (s : State) : (setCpsr v s).spsrSvc = s.spsrSvc := rfl
@[simp] theorem setCpsr_spsrAbt (v : Word) (s : State) : (setCpsr v s).spsrAbt = s.spsrAbt := rfl
@[simp] theorem setCpsr_spsrUnd (v : Word) (s : State) : (setCpsr v s).spsrUnd = s.spsrUnd := rfl
@[simp] theorem setCpsr_mem (v : Word) (s : State) : (setCpsr v s).mem = s.mem := rfl
@[simp] theorem setCpsr_imem (v : Word) (s : State) : (setCpsr v s).imem = s.imem := rfl
@[simp] theorem setCpsr_pins (v : Word) (s : State) : (setCpsr v s).pins = s.pins := rfl
@[simp] theorem setCpsr_lines (v : Word) (s : State) : (setCpsr v s).lines = s.lines := rfl
@[simp] theorem setCpsr_debug (v : Word) (s : State) : (setCpsr v s).dbg = s.dbg := rfl
@[simp] theorem setCpsr_chainOut (v : Word) (s : State) : (setCpsr v s).chainOut = s.chainOut := rfl
@[simp] theorem setCpsr_cops (v : Word) (s : State) : (setCpsr v s).cops = s.cops := rfl
@[simp] theorem setCpsr_accessRules (v : Word) (s : State) : (setCpsr v s).accessRules = s.accessRules := rfl
@[simp] theorem setCpsr_inputs (v : Word) (s : State) : (setCpsr v s).inputs = s.inputs := rfl
@[simp] theorem setCpsr_stale (v : Word) (s : State) : (setCpsr v s).stale = s.stale := rfl
@[simp] theorem setCpsr_pcWrapped (v : Word) (s : State) : (setCpsr v s).pcWrapped = s.pcWrapped := rfl
@[simp] theorem setCpsr_userBankHazard (v : Word) (s : State) : (setCpsr v s).userBankHazard = s.userBankHazard := rfl
@[simp] theorem setCpsr_vectorEntered (v : Word) (s : State) : (setCpsr v s).vectorEntered = s.vectorEntered := rfl
@[simp] theorem setCpsr_tick (v : Word) (s : State) : (setCpsr v s).tick = s.tick := rfl

@[simp] theorem setT_regs (b : Bool) (s : State) : (setT b s).regs = s.regs := rfl
@[simp] theorem setT_pc (b : Bool) (s : State) : (setT b s).pc = s.pc := rfl
@[simp] theorem setT_cpsr (b : Bool) (s : State) : (setT b s).cpsr = setBit s.cpsr 5 b := rfl
@[simp] theorem setT_spsrFiq (b : Bool) (s : State) : (setT b s).spsrFiq = s.spsrFiq := rfl
@[simp] theorem setT_spsrIrq (b : Bool) (s : State) : (setT b s).spsrIrq = s.spsrIrq := rfl
@[simp] theorem setT_spsrSvc (b : Bool) (s : State) : (setT b s).spsrSvc = s.spsrSvc := rfl
@[simp] theorem setT_spsrAbt (b : Bool) (s : State) : (setT b s).spsrAbt = s.spsrAbt := rfl
@[simp] theorem setT_spsrUnd (b : Bool) (s : State) : (setT b s).spsrUnd = s.spsrUnd := rfl
@[simp] theorem setT_mem (b : Bool) (s : State) : (setT b s).mem = s.mem := rfl
@[simp] theorem setT_imem (b : Bool) (s : State) : (setT b s).imem = s.imem := rfl
@[simp] theorem setT_pins (b : Bool) (s : State) : (setT b s).pins = s.pins := rfl
@[simp] theorem setT_lines (b : Bool) (s : State) : (setT b s).lines = s.lines := rfl
@[simp] theorem setT_debug (b : Bool) (s : State) : (setT b s).dbg = s.dbg := rfl
@[simp] theorem setT_chainOut (b : Bool) (s : State) : (setT b s).chainOut = s.chainOut := rfl
@[simp] theorem setT_cops (b : Bool) (s : State) : (setT b s).cops = s.cops := rfl
@[simp] theorem setT_accessRules (b : Bool) (s : State) : (setT b s).accessRules = s.accessRules := rfl
@[simp] theorem setT_inputs (b : Bool) (s : State) : (setT b s).inputs = s.inputs := rfl
@[simp] theorem setT_stale (b : Bool) (s : State) : (setT b s).stale = s.stale := rfl
@[simp] theorem setT_pcWrapped (b : Bool) (s : State) : (setT b s).pcWrapped = s.pcWrapped := rfl
@[simp] theorem setT_userBankHazard (b : Bool) (s : State) : (setT b s).userBankHazard = s.userBankHazard := rfl
@[simp] theorem setT_vectorEntered (b : Bool) (s : State) : (setT b s).vectorEntered = s.vectorEntered := rfl
@[simp] theorem setT_tick (b : Bool) (s : State) : (setT b s).tick = s.tick := rfl

@[simp] theorem advance_regs (n : Word) (s : State) : (advance n s).regs = s.regs := rfl
@[simp] theorem advance_pc (n : Word) (s : State) : (advance n s).pc = s.pc + n := rfl
@[simp] theorem advance_cpsr (n : Word) (s : State) : (advance n s).cpsr = s.cpsr := rfl
@[simp] theorem advance_spsrFiq (n : Word) (s : State) : (advance n s).spsrFiq = s.spsrFiq := rfl
@[simp] theorem advance_spsrIrq (n : Word) (s : State) : (advance n s).spsrIrq = s.spsrIrq := rfl
@[simp] theorem advance_spsrSvc (n : Word) (s : State) : (advance n s).spsrSvc = s.spsrSvc := rfl
@[simp] theorem advance_spsrAbt (n : Word) (s : State) : (advance n s).spsrAbt = s.spsrAbt := rfl
@[simp] theorem advance_spsrUnd (n : Word) (s : State) : (advance n s).spsrUnd = s.spsrUnd := rfl
@[simp] theorem advance_mem (n : Word) (s : State) : (advance n s).mem = s.mem := rfl
@[simp] theorem advance_imem (n : Word) (s : State) : (advance n s).imem = s.imem := rfl
@[simp] theorem advance_pins (n : Word) (s : State) : (advance n s).pins = s.pins := rfl
@[simp] theorem advance_lines (n : Word) (s : State) : (advance n s).lines = s.lines := rfl
@[simp] theorem advance_debug (n : Word) (s : State) : (advance n s).dbg = s.dbg := rfl
@[simp] theorem advance_chainOut (n : Word) (s : State) : (advance n s).chainOut = s.chainOut := rfl
@[simp] theorem advance_cops (n : Word) (s : State) : (advance n s).cops = s.cops := rfl
@[simp] theorem advance_accessRules (n : Word) (s : State) : (advance n s).accessRules = s.accessRules := rfl
@[simp] theorem advance_inputs (n : Word) (s : State) : (advance n s).inputs = s.inputs := rfl
@[simp] theorem advance_stale (n : Word) (s : State) : (advance n s).stale = s.stale := rfl
@[simp] theorem advance_pcWrapped (n : Word) (s : State) : (advance n s).pcWrapped = decide (2 ^ 32 ≤ s.pc.toNat + n.toNat) := rfl
@[simp] theorem advance_userBankHazard (n : Word) (s : State) : (advance n s).userBankHazard = s.userBankHazard := rfl
@[simp] theorem advance_vectorEntered (n : Word) (s : State) : (advance n s).vectorEntered = s.vectorEntered := rfl
@[simp] theorem advance_tick (n : Word) (s : State) : (advance n s).tick = s.tick := rfl

@[simp] theorem branchTo_regs (a : Word) (s : State) : (branchTo a s).regs = s.regs := rfl
@[simp] theorem branchTo_pc (a : Word) (s : State) : (branchTo a s).pc = a := rfl
@[simp] theorem branchTo_cpsr (a : Word) (s : State) : (branchTo a s).cpsr = s.cpsr := rfl
@[simp] theorem branchTo_spsrFiq (a : Word) (s : State) : (branchTo a s).spsrFiq = s.spsrFiq := rfl
@[simp] theorem branchTo_spsrIrq (a : Word) (s : State) : (branchTo a s).spsrIrq = s.spsrIrq := rfl
@[simp] theorem branchTo_spsrSvc (a : Word) (s : State) : (branchTo a s).spsrSvc = s.spsrSvc := rfl
@[simp] theorem branchTo_spsrAbt (a : Word) (s : State) : (branchTo a s).spsrAbt = s.spsrAbt := rfl
@[simp] theorem branchTo_spsrUnd (a : Word) (s : State) : (branchTo a s).spsrUnd = s.spsrUnd := rfl
@[simp] theorem branchTo_mem (a : Word) (s : State) : (branchTo a s).mem = s.mem := rfl
@[simp] theorem branchTo_imem (a : Word) (s : State) : (branchTo a s).imem = s.imem := rfl
@[simp] theorem branchTo_pins (a : Word) (s : State) : (branchTo a s).pins = s.pins := rfl
@[simp] theorem branchTo_lines (a : Word) (s : State) : (branchTo a s).lines = s.lines := rfl
@[simp] theorem branchTo_debug (a : Word) (s : State) : (branchTo a s).dbg = s.dbg := rfl
@[simp] theorem branchTo_chainOut (a : Word) (s : State) : (branchTo a s).chainOut = s.chainOut := rfl
@[simp] theorem branchTo_cops (a : Word) (s : State) : (branchTo a s).cops = s.cops := rfl
@[simp] theorem branchTo_accessRules (a : Word) (s : State) : (branchTo a s).accessRules = s.accessRules := rfl
@[simp] theorem branchTo_inputs (a : Word) (s : State) : (branchTo a s).inputs = s.inputs := rfl
@[simp] theorem branchTo_stale (a : Word) (s : State) : (branchTo a s).stale = [] := rfl
@[simp] theorem branchTo_pcWrapped (a : Word) (s : State) : (branchTo a s).pcWrapped = false := rfl
@[simp] theorem branchTo_userBankHazard (a : Word) (s : State) : (branchTo a s).userBankHazard = s.userBankHazard := rfl
@[simp] theorem branchTo_vectorEntered (a : Word) (s : State) : (branchTo a s).vectorEntered = s.vectorEntered := rfl
@[simp] theorem branchTo_tick (a : Word) (s : State) : (branchTo a s).tick = s.tick := rfl

@[simp] theorem setDbgAbt_regs (b : Bool) (s : State) : (setDbgAbt b s).regs = s.regs := rfl
@[simp] theorem setDbgAbt_pc (b : Bool) (s : State) : (setDbgAbt b s).pc = s.pc := rfl
@[simp] theorem setDbgAbt_cpsr (b : Bool) (s : State) : (setDbgAbt b s).cpsr = s.cpsr := rfl
@[simp] theorem setDbgAbt_spsrFiq (b : Bool) (s : State) : (setDbgAbt b s).spsrFiq = s.spsrFiq := rfl
@[simp] theorem setDbgAbt_spsrIrq (b : Bool) (s : State) : (setDbgAbt b s).spsrIrq = s.spsrIrq := rfl
@[simp] theorem setDbgAbt_spsrSvc (b : Bool) (s : State) : (setDbgAbt b s).spsrSvc = s.spsrSvc := rfl
@[simp] theorem setDbgAbt_spsrAbt (b : Bool) (s : State) : (setDbgAbt b s).spsrAbt = s.spsrAbt := rfl
@[simp] theorem setDbgAbt_spsrUnd (b : Bool) (s : State) : (setDbgAbt b s).spsrUnd = s.spsrUnd := rfl
@[simp] theorem setDbgAbt_mem (b : Bool) (s : State) : (setDbgAbt b s).mem = s.mem := rfl
@[simp] theorem setDbgAbt_imem (b : Bool) (s : State) : (setDbgAbt b s).imem = s.imem := rfl
@[simp] theorem setDbgAbt_pins (b : Bool) (s : State) : (setDbgAbt b s).pins = s.pins := rfl
@[simp] theorem setDbgAbt_lines (b : Bool) (s : State) : (setDbgAbt b s).lines = s.lines := rfl
@[simp] theorem setDbgAbt_chainOut (b : Bool) (s : State) : (setDbgAbt b s).chainOut = s.chainOut := rfl
@[simp] theorem setDbgAbt_cops (b : Bool) (s : State) : (setDbgAbt b s).cops = s.cops := rfl
@[simp] theorem setDbgAbt_accessRules (b : Bool) (s : State) : (setDbgAbt b s).accessRules = s.accessRules := rfl
@[simp] theorem setDbgAbt_inputs (b : Bool) (s : State) : (setDbgAbt b s).inputs = s.inputs := rfl
@[simp] theorem setDbgAbt_stale (b : Bool) (s : State) : (setDbgAbt b s).stale = s.stale := rfl
@[simp] theorem setDbgAbt_pcWrapped (b : Bool) (s : State) : (setDbgAbt b s).pcWrapped = s.pcWrapped := rfl
@[simp] theorem setDbgAbt_userBankHazard (b : Bool) (s : State) : (setDbgAbt b s).userBankHazard = s.userBankHazard := rfl
@[simp] theorem setDbgAbt_vectorEntered (b : Bool) (s : State) : (setDbgAbt b s).vectorEntered = s.vectorEntered := rfl
@[simp] theorem setDbgAbt_tick (b : Bool) (s : State) : (setDbgAbt b s).tick = s.tick := rfl

@[simp] theorem copDone_regs (cp : BitVec 4) (r : List CopMessage) (s : State) : (copDone cp r s).regs = s.regs := rfl
@[simp] theorem copDone_pc (cp : BitVec 4) (r : List CopMessage) (s : State) : (copDone cp r s).pc = s.pc := rfl
@[simp] theorem copDone_cpsr (cp : BitVec 4) (r : List CopMessage) (s : State) : (copDone cp r s).cpsr = s.cpsr := rfl
@[simp] theorem copDone_spsrFiq (cp : BitVec 4) (r : List CopMessage) (s : State) : (copDone cp r s).spsrFiq = s.spsrFiq := rfl
@[simp] theorem copDone_spsrIrq (cp : BitVec 4) (r : List CopMessage) (s : State) : (copDone cp r s).spsrIrq = s.spsrIrq := rfl
@[simp] theorem copDone_spsrSvc (cp : BitVec 4) (r : List CopMessage) (s : State) : (copDone cp r s).spsrSvc = s.spsrSvc := rfl
@[simp] theorem copDone_spsrAbt (cp : BitVec 4) (r : List CopMessage) (s : State) : (copDone cp r s).spsrAbt = s.spsrAbt := rfl
@[simp] theorem copDone_spsrUnd (cp : BitVec 4) (r : List CopMessage) (s : State) : (copDone cp r s).spsrUnd = s.spsrUnd := rfl
@[simp] theorem copDone_mem (cp : BitVec 4) (r : List CopMessage) (s : State) : (copDone cp r s).mem = s.mem := rfl
@[simp] theorem copDone_imem (cp : BitVec 4) (r : List CopMessage) (s : State) : (copDone cp r s).imem = s.imem := rfl
@[simp] theorem copDone_pins (cp : BitVec 4) (r : List CopMessage) (s : State) : (copDone cp r s).pins = s.pins := rfl
@[simp] theorem copDone_lines (cp : BitVec 4) (r : List CopMessage) (s : State) : (copDone cp r s).lines = s.lines := rfl
@[simp] theorem copDone_debug (cp : BitVec 4) (r : List CopMessage) (s : State) : (copDone cp r s).dbg = s.dbg := rfl
@[simp] theorem copDone_chainOut (cp : BitVec 4) (r : List CopMessage) (s : State) : (copDone cp r s).chainOut = s.chainOut := rfl
@[simp] theorem copDone_cops (cp : BitVec 4) (r : List CopMessage) (s : State) : (copDone cp r s).cops = advancePort cp r s.cops := rfl
@[simp] theorem copDone_accessRules (cp : BitVec 4) (r : List CopMessage) (s : State) : (copDone cp r s).accessRules = s.accessRules := rfl
@[simp] theorem copDone_inputs (cp : BitVec 4) (r : List CopMessage) (s : State) : (copDone cp r s).inputs = s.inputs := rfl
@[simp] theorem copDone_stale (cp : BitVec 4) (r : List CopMessage) (s : State) : (copDone cp r s).stale = s.stale := rfl
@[simp] theorem copDone_pcWrapped (cp : BitVec 4) (r : List CopMessage) (s : State) : (copDone cp r s).pcWrapped = s.pcWrapped := rfl
@[simp] theorem copDone_userBankHazard (cp : BitVec 4) (r : List CopMessage) (s : State) : (copDone cp r s).userBankHazard = s.userBankHazard := rfl
@[simp] theorem copDone_vectorEntered (cp : BitVec 4) (r : List CopMessage) (s : State) : (copDone cp r s).vectorEntered = s.vectorEntered := rfl
@[simp] theorem copDone_tick (cp : BitVec 4) (r : List CopMessage) (s : State) : (copDone cp r s).tick = s.tick := rfl

@[simp] theorem writeMem_regs (z : Size) (a v : Word) (s : State) : (writeMem z a v s).regs = s.regs := rfl
@[simp] theorem writeMem_pc (z : Size) (a v : Word) (s : State) : (writeMem z a v s).pc = s.pc := rfl
@[simp] theorem writeMem_cpsr (z : Size) (a v : Word) (s : State) : (writeMem z a v s).cpsr = s.cpsr := rfl
@[simp] theorem writeMem_spsrFiq (z : Size) (a v : Word) (s : State) : (writeMem z a v s).spsrFiq = s.spsrFiq := rfl
@[simp] theorem writeMem_spsrIrq (z : Size) (a v : Word) (s : State) : (writeMem z a v s).spsrIrq = s.spsrIrq := rfl
@[simp] theorem writeMem_spsrSvc (z : Size) (a v : Word) (s : State) : (writeMem z a v s).spsrSvc = s.spsrSvc := rfl
@[simp] theorem writeMem_spsrAbt (z : Size) (a v : Word) (s : State) : (writeMem z a v s).spsrAbt = s.spsrAbt := rfl
@[simp] theorem writeMem_spsrUnd (z : Size) (a v : Word) (s : State) : (writeMem z a v s).spsrUnd = s.spsrUnd := rfl
@[simp] theorem writeMem_mem (z : Size) (a v : Word) (s : State) : (writeMem z a v s).mem = memPutBytes s.mem (z.align a).toNat (laneBytes s.pins.bigEndian z v) := rfl
@[simp] theorem writeMem_imem (z : Size) (a v : Word) (s : State) : (writeMem z a v s).imem = s.imem := rfl
@[simp] theorem writeMem_pins (z : Size) (a v : Word) (s : State) : (writeMem z a v s).pins = s.pins := rfl
@[simp] theorem writeMem_lines (z : Size) (a v : Word) (s : State) : (writeMem z a v s).lines = s.lines := rfl
@[simp] theorem writeMem_debug (z : Size) (a v : Word) (s : State) : (writeMem z a v s).dbg = s.dbg := rfl
@[simp] theorem writeMem_chainOut (z : Size) (a v : Word) (s : State) : (writeMem z a v s).chainOut = s.chainOut := rfl
@[simp] theorem writeMem_cops (z : Size) (a v : Word) (s : State) : (writeMem z a v s).cops = s.cops := rfl
@[simp] theorem writeMem_accessRules (z : Size) (a v : Word) (s : State) : (writeMem z a v s).accessRules = s.accessRules := rfl
@[simp] theorem writeMem_inputs (z : Size) (a v : Word) (s : State) : (writeMem z a v s).inputs = s.inputs := rfl
@[simp] theorem writeMem_pcWrapped (z : Size) (a v : Word) (s : State) : (writeMem z a v s).pcWrapped = s.pcWrapped := rfl
@[simp] theorem writeMem_userBankHazard (z : Size) (a v : Word) (s : State) : (writeMem z a v s).userBankHazard = s.userBankHazard := rfl
@[simp] theorem writeMem_vectorEntered (z : Size) (a v : Word) (s : State) : (writeMem z a v s).vectorEntered = s.vectorEntered := rfl
@[simp] theorem writeMem_tick (z : Size) (a v : Word) (s : State) : (writeMem z a v s).tick = s.tick := rfl

@[simp] theorem setRegAt_pc (m : ModeBits) (n : Reg) (v : Word) (s : State) : (setRegAt m n v s).pc = s.pc := by
  unfold setRegAt; split <;> rfl
@[simp] theorem setRegAt_cpsr (m : ModeBits) (n : Reg) (v : Word) (s : State) : (setRegAt m n v s).cpsr = s.cpsr := by
  unfold setRegAt; split <;> rfl
@[simp] theorem setRegAt_spsrFiq (m : ModeBits) (n : Reg) (v : Word) (s : State) : (setRegAt m n v s).spsrFiq = s.spsrFiq := by
  unfold setRegAt; split <;> rfl
@[simp] theorem setRegAt_spsrIrq (m : ModeBits) (n : Reg) (v : Word) (s : State) : (setRegAt m n v s).spsrIrq = s.spsrIrq := by
  unfold setRegAt; split <;> rfl
@[simp] theorem setRegAt_spsrSvc (m : ModeBits) (n : Reg) (v : Word) (s : State) : (setRegAt m n v s).spsrSvc = s.spsrSvc := by
  unfold setRegAt; split <;> rfl
@[simp] theorem setRegAt_spsrAbt (m : ModeBits) (n : Reg) (v : Word) (s : State) : (setRegAt m n v s).spsrAbt = s.spsrAbt := by
  unfold setRegAt; split <;> rfl
@[simp] theorem setRegAt_spsrUnd (m : ModeBits) (n : Reg) (v : Word) (s : State) : (setRegAt m n v s).spsrUnd = s.spsrUnd := by
  unfold setRegAt; split <;> rfl
@[simp] theorem setRegAt_mem (m : ModeBits) (n : Reg) (v : Word) (s : State) : (setRegAt m n v s).mem = s.mem := by
  unfold setRegAt; split <;> rfl
@[simp] theorem setRegAt_imem (m : ModeBits) (n : Reg) (v : Word) (s : State) : (setRegAt m n v s).imem = s.imem := by
  unfold setRegAt; split <;> rfl
@[simp] theorem setRegAt_pins (m : ModeBits) (n : Reg) (v : Word) (s : State) : (setRegAt m n v s).pins = s.pins := by
  unfold setRegAt; split <;> rfl
@[simp] theorem setRegAt_lines (m : ModeBits) (n : Reg) (v : Word) (s : State) : (setRegAt m n v s).lines = s.lines := by
  unfold setRegAt; split <;> rfl
@[simp] theorem setRegAt_debug (m : ModeBits) (n : Reg) (v : Word) (s : State) : (setRegAt m n v s).dbg = s.dbg := by
  unfold setRegAt; split <;> rfl
@[simp] theorem setRegAt_chainOut (m : ModeBits) (n : Reg) (v : Word) (s : State) : (setRegAt m n v s).chainOut = s.chainOut := by
  unfold setRegAt; split <;> rfl
@[simp] theorem setRegAt_cops (m : ModeBits) (n : Reg) (v : Word) (s : State) : (setRegAt m n v s).cops = s.cops := by
  unfold setRegAt; split <;> rfl
@[simp] theorem setRegAt_accessRules (m : ModeBits) (n : Reg) (v : Word) (s : State) : (setRegAt m n v s).accessRules = s.accessRules := by
  unfold setRegAt; split <;> rfl
@[simp] theorem setRegAt_inputs (m : ModeBits) (n : Reg) (v : Word) (s : State) : (setRegAt m n v s).inputs = s.inputs := by
  unfold setRegAt; split <;> rfl
@[simp] theorem setRegAt_stale (m : ModeBits) (n : Reg) (v : Word) (s : State) : (setRegAt m n v s).stale = s.stale := by
  unfold setRegAt; split <;> rfl
@[simp] theorem setRegAt_pcWrapped (m : ModeBits) (n : Reg) (v : Word) (s : State) : (setRegAt m n v s).pcWrapped = s.pcWrapped := by
  unfold setRegAt; split <;> rfl
@[simp] theorem setRegAt_userBankHazard (m : ModeBits) (n : Reg) (v : Word) (s : State) : (setRegAt m n v s).userBankHazard = s.userBankHazard := by
  unfold setRegAt; split <;> rfl
@[simp] theorem setRegAt_vectorEntered (m : ModeBits) (n : Reg) (v : Word) (s : State) : (setRegAt m n v s).vectorEntered = s.vectorEntered := by
  unfold setRegAt; split <;> rfl
@[simp] theorem setRegAt_tick (m : ModeBits) (n : Reg) (v : Word) (s : State) : (setRegAt m n v s).tick = s.tick := by
  unfold setRegAt; split <;> rfl

@[simp] theorem setReg_pc (n : Reg) (v : Word) (s : State) : (setReg n v s).pc = s.pc := by
  simp [setReg]
@[simp] theorem setReg_cpsr (n : Reg) (v : Word) (s : State) : (setReg n v s).cpsr = s.cpsr := by
  simp [setReg]
@[simp] theorem setReg_spsrFiq (n : Reg) (v : Word) (s : State) : (setReg n v s).spsrFiq = s.spsrFiq := by
  simp [setReg]
@[simp] theorem setReg_spsrIrq (n : Reg) (v : Word) (s : State) : (setReg n v s).spsrIrq = s.spsrIrq := by
  simp [setReg]
@[simp] theorem setReg_spsrSvc (n : Reg) (v : Word) (s : State) : (setReg n v s).spsrSvc = s.spsrSvc := by
  simp [setReg]
@[simp] theorem setReg_spsrAbt (n : Reg) (v : Word) (s : State) : (setReg n v s).spsrAbt = s.spsrAbt := by
  simp [setReg]
@[simp] theorem setReg_spsrUnd (n : Reg) (v : Word) (s : State) : (setReg n v s).spsrUnd = s.spsrUnd := by
  simp [setReg]
@[simp] theorem setReg_mem (n : Reg) (v : Word) (s : State) : (setReg n v s).mem = s.mem := by
  simp [setReg]
@[simp] theorem setReg_imem (n : Reg) (v : Word) (s : State) : (setReg n v s).imem = s.imem := by
  simp [setReg]
@[simp] theorem setReg_pins (n : Reg) (v : Word) (s : State) : (setReg n v s).pins = s.pins := by
  simp [setReg]
@[simp] theorem setReg_lines (n : Reg) (v : Word) (s : State) : (setReg n v s).lines = s.lines := by
  simp [setReg]
@[simp] theorem setReg_debug (n : Reg) (v : Word) (s : State) : (setReg n v s).dbg = s.dbg := by
  simp [setReg]
@[simp] theorem setReg_chainOut (n : Reg) (v : Word) (s : State) : (setReg n v s).chainOut = s.chainOut := by
  simp [setReg]
@[simp] theorem setReg_cops (n : Reg) (v : Word) (s : State) : (setReg n v s).cops = s.cops := by
  simp [setReg]
@[simp] theorem setReg_accessRules (n : Reg) (v : Word) (s : State) : (setReg n v s).accessRules = s.accessRules := by
  simp [setReg]
@[simp] theorem setReg_inputs (n : Reg) (v : Word) (s : State) : (setReg n v s).inputs = s.inputs := by
  simp [setReg]
@[simp] theorem setReg_stale (n : Reg) (v : Word) (s : State) : (setReg n v s).stale = s.stale := by
  simp [setReg]
@[simp] theorem setReg_pcWrapped (n : Reg) (v : Word) (s : State) : (setReg n v s).pcWrapped = s.pcWrapped := by
  simp [setReg]
@[simp] theorem setReg_userBankHazard (n : Reg) (v : Word) (s : State) : (setReg n v s).userBankHazard = s.userBankHazard := by
  simp [setReg]
@[simp] theorem setReg_vectorEntered (n : Reg) (v : Word) (s : State) : (setReg n v s).vectorEntered = s.vectorEntered := by
  simp [setReg]
@[simp] theorem setReg_tick (n : Reg) (v : Word) (s : State) : (setReg n v s).tick = s.tick := by
  simp [setReg]

@[simp] theorem setSpsrAt_regs (m : ModeBits) (v : Word) (s : State) : (setSpsrAt m v s).regs = s.regs := by
  unfold setSpsrAt; repeat' split
  all_goals rfl
@[simp] theorem setSpsrAt_pc (m : ModeBits) (v : Word) (s : State) : (setSpsrAt m v s).pc = s.pc := by
  unfold setSpsrAt; repeat' split
  all_goals rfl
@[simp] theorem setSpsrAt_cpsr (m : ModeBits) (v : Word) (s : State) : (setSpsrAt m v s).cpsr = s.cpsr := by
  unfold setSpsrAt; repeat' split
  all_goals rfl
@[simp] theorem setSpsrAt_mem (m : ModeBits) (v : Word) (s : State) : (setSpsrAt m v s).mem = s.mem := by
  unfold setSpsrAt; repeat' split
  all_goals rfl
@[simp] theorem setSpsrAt_imem (m : ModeBits) (v : Word) (s : State) : (setSpsrAt m v s).imem = s.imem := by
  unfold setSpsrAt; repeat' split
  all_goals rfl
@[simp] theorem setSpsrAt_pins (m : ModeBits) (v : Word) (s : State) : (setSpsrAt m v s).pins = s.pins := by
  unfold setSpsrAt; repeat' split
  all_goals rfl
@[simp] theorem setSpsrAt_lines (m : ModeBits) (v : Word) (s : State) : (setSpsrAt m v s).lines = s.lines := by
  unfold setSpsrAt; repeat' split
  all_goals rfl
@[simp] theorem setSpsrAt_debug (m : ModeBits) (v : Word) (s : State) : (setSpsrAt m v s).dbg = s.dbg := by
  unfold setSpsrAt; repeat' split
  all_goals rfl
@[simp] theorem setSpsrAt_chainOut (m : ModeBits) (v : Word) (s : State) : (setSpsrAt m v s).chainOut = s.chainOut := by
  unfold setSpsrAt; repeat' split
  all_goals rfl
@[simp] theorem setSpsrAt_cops (m : ModeBits) (v : Word) (s : State) : (setSpsrAt m v s).cops = s.cops := by
  unfold setSpsrAt; repeat' split
  all_goals rfl
@[simp] theorem setSpsrAt_accessRules (m : ModeBits) (v : Word) (s : State) : (setSpsrAt m v s).accessRules = s.accessRules := by
  unfold setSpsrAt; repeat' split
  all_goals rfl
@[simp] theorem setSpsrAt_inputs (m : ModeBits) (v : Word) (s : State) : (setSpsrAt m v s).inputs = s.inputs := by
  unfold setSpsrAt; repeat' split
  all_goals rfl
@[simp] theorem setSpsrAt_stale (m : ModeBits) (v : Word) (s : State) : (setSpsrAt m v s).stale = s.stale := by
  unfold setSpsrAt; repeat' split
  all_goals rfl
@[simp] theorem setSpsrAt_pcWrapped (m : ModeBits) (v : Word) (s : State) : (setSpsrAt m v s).pcWrapped = s.pcWrapped := by
  unfold setSpsrAt; repeat' split
  all_goals rfl
@[simp] theorem setSpsrAt_userBankHazard (m : ModeBits) (v : Word) (s : State) : (setSpsrAt m v s).userBankHazard = s.userBankHazard := by
  unfold setSpsrAt; repeat' split
  all_goals rfl
@[simp] theorem setSpsrAt_vectorEntered (m : ModeBits) (v : Word) (s : State) : (setSpsrAt m v s).vectorEntered = s.vectorEntered := by
  unfold setSpsrAt; repeat' split
  all_goals rfl
@[simp] theorem setSpsrAt_tick (m : ModeBits) (v : Word) (s : State) : (setSpsrAt m v s).tick = s.tick := by
  unfold setSpsrAt; repeat' split
  all_goals rfl

@[simp] theorem takeException_regs (e : Exception) (link : Word) (s : State) : (takeException e link s).regs = (setRegAt e.entryMode 14 link s).regs := by
  simp [takeException]
@[simp] theorem takeException_pc (e : Exception) (link : Word) (s : State) : (takeException e link s).pc = vectorBase s + e.offset := by
  simp [takeException]
@[simp] theorem takeException_cpsr (e : Exception) (link : Word) (s : State) : (takeException e link s).cpsr = entryCpsr e s.cpsr := by
  simp [takeException]
@[simp] theorem takeException_mem (e : Exception) (link : Word) (s : State) : (takeException e link s).mem = s.mem := by
  simp [takeException]
@[simp] theorem takeException_imem (e : Exception) (link : Word) (s : State) : (takeException e link s).imem = s.imem := by
  simp [takeException]
@[simp] theorem takeException_pins (e : Exception) (link : Word) (s : State) : (takeException e link s).pins = s.pins := by
  simp [takeException]
@[simp] theorem takeException_lines (e : Exception) (link : Word) (s : State) : (takeException e link s).lines = s.lines := by
  simp [takeException]
@[simp] theorem takeException_debug (e : Exception) (link : Word) (s : State) : (takeException e link s).dbg = s.dbg := by
  simp [takeException]
@[simp] theorem takeException_chainOut (e : Exception) (link : Word) (s : State) : (takeException e link s).chainOut = s.chainOut := by
  simp [takeException]
@[simp] theorem takeException_cops (e : Exception) (link : Word) (s : State) : (takeException e link s).cops = s.cops := by
  simp [takeException]
@[simp] theorem takeException_accessRules (e : Exception) (link : Word) (s : State) : (takeException e link s).accessRules = s.accessRules := by
  simp [takeException]
@[simp] theorem takeException_inputs (e : Exception) (link : Word) (s : State) : (takeException e link s).inputs = s.inputs := by
  simp [takeException]
@[simp] theorem takeException_stale (e : Exception) (link : Word) (s : State) : (takeException e link s).stale = [] := by
  simp [takeException]
@[simp] theorem takeException_pcWrapped (e : Exception) (link : Word) (s : State) : (takeException e link s).pcWrapped = false := by
  simp [takeException]
@[simp] theorem takeException_userBankHazard (e : Exception) (link : Word) (s : State) : (takeException e link s).userBankHazard = false := by
  simp [takeException]
@[simp] theorem takeException_vectorEntered (e : Exception) (link : Word) (s : State) : (takeException e link s).vectorEntered = some e := by
  simp [takeException]
@[simp] theorem takeException_tick (e : Exception) (link : Word) (s : State) : (takeException e link s).tick = s.tick := by
  simp [takeException]

@[simp] theorem latched_regs (a : Access) (v : Word) (s : State) : (latched a v s).regs = s.regs := rfl
@[simp] theorem latched_pc (a : Access) (v : Word) (s : State) : (latched a v s).pc = s.pc := rfl
@[simp] theorem latched_cpsr (a : Access) (v : Word) (s : State) : (latched a v s).cpsr = s.cpsr := rfl
@[simp] theorem latched_spsrFiq (a : Access) (v : Word) (s : State) : (latched a v s).spsrFiq = s.spsrFiq := rfl
@[simp] theorem latched_spsrIrq (a : Access) (v : Word) (s : State) : (latched a v s).spsrIrq = s.spsrIrq := rfl
@[simp] theorem latched_spsrSvc (a : Access) (v : Word) (s : State) : (latched a v s).spsrSvc = s.spsrSvc := rfl
@[simp] theorem latched_spsrAbt (a : Access) (v : Word) (s : State) : (latched a v s).spsrAbt = s.spsrAbt := rfl
@[simp] theorem latched_spsrUnd (a : Access) (v : Word) (s : State) : (latched a v s).spsrUnd = s.spsrUnd := rfl
@[simp] theorem latched_mem (a : Access) (v : Word) (s : State) : (latched a v s).mem = s.mem := rfl
@[simp] theorem latched_imem (a : Access) (v : Word) (s : State) : (latched a v s).imem = s.imem := rfl
@[simp] theorem latched_pins (a : Access) (v : Word) (s : State) : (latched a v s).pins = s.pins := rfl
@[simp] theorem latched_lines (a : Access) (v : Word) (s : State) : (latched a v s).lines = s.lines := rfl
@[simp] theorem latched_debug (a : Access) (v : Word) (s : State) : (latched a v s).dbg = s.dbg := rfl
@[simp] theorem latched_cops (a : Access) (v : Word) (s : State) : (latched a v s).cops = s.cops := rfl
@[simp] theorem latched_accessRules (a : Access) (v : Word) (s : State) : (latched a v s).accessRules = s.accessRules := rfl
@[simp] theorem latched_inputs (a : Access) (v : Word) (s : State) : (latched a v s).inputs = s.inputs := rfl
@[simp] theorem latched_stale (a : Access) (v : Word) (s : State) : (latched a v s).stale = s.stale := rfl
@[simp] theorem latched_pcWrapped (a : Access) (v : Word) (s : State) : (latched a v s).pcWrapped = s.pcWrapped := rfl
@[simp] theorem latched_userBankHazard (a : Access) (v : Word) (s : State) : (latched a v s).userBankHazard = s.userBankHazard := rfl
@[simp] theorem latched_vectorEntered (a : Access) (v : Word) (s : State) : (latched a v s).vectorEntered = s.vectorEntered := rfl
@[simp] theorem latched_tick (a : Access) (v : Word) (s : State) : (latched a v s).tick = s.tick := rfl

@[simp] theorem latchedAbort_regs (a : Access) (v : Word) (s : State) : (latchedAbort a v s).regs = s.regs := by
  unfold latchedAbort; split <;> rfl
@[simp] theorem latchedAbort_pc (a : Access) (v : Word) (s : State) : (latchedAbort a v s).pc = s.pc := by
  unfold latchedAbort; split <;> rfl
@[simp] theorem latchedAbort_cpsr (a : Access) (v : Word) (s : State) : (latchedAbort a v s).cpsr = s.cpsr := by
  unfold latchedAbort; split <;> rfl
@[simp] theorem latchedAbort_spsrFiq (a : Access) (v : Word) (s : State) : (latchedAbort a v s).spsrFiq = s.spsrFiq := by
  unfold latchedAbort; split <;> rfl
@[simp] theorem latchedAbort_spsrIrq (a : Access) (v : Word) (s : State) : (latchedAbort a v s).spsrIrq = s.spsrIrq := by
  unfold latchedAbort; split <;> rfl
@[simp] theorem latchedAbort_spsrSvc (a : Access) (v : Word) (s : State) : (latchedAbort a v s).spsrSvc = s.spsrSvc := by
  unfold latchedAbort; split <;> rfl
@[simp] theorem latchedAbort_spsrAbt (a : Access) (v : Word) (s : State) : (latchedAbort a v s).spsrAbt = s.spsrAbt := by
  unfold latchedAbort; split <;> rfl
@[simp] theorem latchedAbort_spsrUnd (a : Access) (v : Word) (s : State) : (latchedAbort a v s).spsrUnd = s.spsrUnd := by
  unfold latchedAbort; split <;> rfl
@[simp] theorem latchedAbort_mem (a : Access) (v : Word) (s : State) : (latchedAbort a v s).mem = s.mem := by
  unfold latchedAbort; split <;> rfl
@[simp] theorem latchedAbort_imem (a : Access) (v : Word) (s : State) : (latchedAbort a v s).imem = s.imem := by
  unfold latchedAbort; split <;> rfl
@[simp] theorem latchedAbort_pins (a : Access) (v : Word) (s : State) : (latchedAbort a v s).pins = s.pins := by
  unfold latchedAbort; split <;> rfl
@[simp] theorem latchedAbort_lines (a : Access) (v : Word) (s : State) : (latchedAbort a v s).lines = s.lines := by
  unfold latchedAbort; split <;> rfl
@[simp] theorem latchedAbort_debug (a : Access) (v : Word) (s : State) : (latchedAbort a v s).dbg = s.dbg := by
  unfold latchedAbort; split <;> rfl
@[simp] theorem latchedAbort_cops (a : Access) (v : Word) (s : State) : (latchedAbort a v s).cops = s.cops := by
  unfold latchedAbort; split <;> rfl
@[simp] theorem latchedAbort_accessRules (a : Access) (v : Word) (s : State) : (latchedAbort a v s).accessRules = s.accessRules := by
  unfold latchedAbort; split <;> rfl
@[simp] theorem latchedAbort_inputs (a : Access) (v : Word) (s : State) : (latchedAbort a v s).inputs = s.inputs := by
  unfold latchedAbort; split <;> rfl
@[simp] theorem latchedAbort_stale (a : Access) (v : Word) (s : State) : (latchedAbort a v s).stale = s.stale := by
  unfold latchedAbort; split <;> rfl
@[simp] theorem latchedAbort_pcWrapped (a : Access) (v : Word) (s : State) : (latchedAbort a v s).pcWrapped = s.pcWrapped := by
  unfold latchedAbort; split <;> rfl
@[simp] theorem latchedAbort_userBankHazard (a : Access) (v : Word) (s : State) : (latchedAbort a v s).userBankHazard = s.userBankHazard := by
  unfold latchedAbort; split <;> rfl
@[simp] theorem latchedAbort_vectorEntered (a : Access) (v : Word) (s : State) : (latchedAbort a v s).vectorEntered = s.vectorEntered := by
  unfold latchedAbort; split <;> rfl
@[simp] theorem latchedAbort_tick (a : Access) (v : Word) (s : State) : (latchedAbort a v s).tick = s.tick := by
  unfold latchedAbort; split <;> rfl

@[simp] theorem perform_regs (a : Access) (v : Word) (s : State) : (perform a v s).regs = s.regs := by
  unfold perform; split <;> rfl
@[simp] theorem perform_pc (a : Access) (v : Word) (s : State) : (perform a v s).pc = s.pc := by
  unfold perform; split <;> rfl
@[simp] theorem perform_cpsr (a : Access) (v : Word) (s : State) : (perform a v s).cpsr = s.cpsr := by
  unfold perform; split <;> rfl
@[simp] theorem perform_spsrFiq (a : Access) (v : Word) (s : State) : (perform a v s).spsrFiq = s.spsrFiq := by
  unfold perform; split <;> rfl
@[simp] theorem perform_spsrIrq (a : Access) (v : Word) (s : State) : (perform a v s).spsrIrq = s.spsrIrq := by
  unfold perform; split <;> rfl
@[simp] theorem perform_spsrSvc (a : Access) (v : Word) (s : State) : (perform a v s).spsrSvc = s.spsrSvc := by
  unfold perform; split <;> rfl
@[simp] theorem perform_spsrAbt (a : Access) (v : Word) (s : State) : (perform a v s).spsrAbt = s.spsrAbt := by
  unfold perform; split <;> rfl
@[simp] theorem perform_spsrUnd (a : Access) (v : Word) (s : State) : (perform a v s).spsrUnd = s.spsrUnd := by
  unfold perform; split <;> rfl
@[simp] theorem perform_imem (a : Access) (v : Word) (s : State) : (perform a v s).imem = s.imem := by
  unfold perform; split <;> rfl
@[simp] theorem perform_pins (a : Access) (v : Word) (s : State) : (perform a v s).pins = s.pins := by
  unfold perform; split <;> rfl
@[simp] theorem perform_lines (a : Access) (v : Word) (s : State) : (perform a v s).lines = s.lines := by
  unfold perform; split <;> rfl
@[simp] theorem perform_debug (a : Access) (v : Word) (s : State) : (perform a v s).dbg = s.dbg := by
  unfold perform; split <;> rfl
@[simp] theorem perform_cops (a : Access) (v : Word) (s : State) : (perform a v s).cops = s.cops := by
  unfold perform; split <;> rfl
@[simp] theorem perform_accessRules (a : Access) (v : Word) (s : State) : (perform a v s).accessRules = s.accessRules := by
  unfold perform; split <;> rfl
@[simp] theorem perform_inputs (a : Access) (v : Word) (s : State) : (perform a v s).inputs = s.inputs := by
  unfold perform; split <;> rfl
@[simp] theorem perform_pcWrapped (a : Access) (v : Word) (s : State) : (perform a v s).pcWrapped = s.pcWrapped := by
  unfold perform; split <;> rfl
@[simp] theorem perform_userBankHazard (a : Access) (v : Word) (s : State) : (perform a v s).userBankHazard = s.userBankHazard := by
  unfold perform; split <;> rfl
@[simp] theorem perform_vectorEntered (a : Access) (v : Word) (s : State) : (perform a v s).vectorEntered = s.vectorEntered := by
  unfold perform; split <;> rfl
@[simp] theorem perform_tick (a : Access) (v : Word) (s : State) : (perform a v s).tick = s.tick := by
  unfold perform; split <;> rfl
@[simp] theorem perform_chainOut (a : Access) (v : Word) (s : State) : (perform a v s).chainOut = s.chainOut := by
  unfold perform; split <;> rfl

@[simp] theorem mode_setReg (n : Reg) (v : Word) (s : State) : mode (setReg n v s) = mode s := by simp [mode]
@[simp] theorem mode_setRegAt (m : ModeBits) (n : Reg) (v : Word) (s : State) : mode (setRegAt m n v s) = mode s := by
  simp [mode]
@[simp] theorem mode_advance (n : Word) (s : State) : mode (advance n s) = mode s := rfl
@[simp] theorem mode_branchTo (a : Word) (s : State) : mode (branchTo a s) = mode s := rfl
@[simp] theorem mode_writeMem (z : Size) (a v : Word) (s : State) : mode (writeMem z a v s) = mode s := rfl
@[simp] theorem mode_copDone (cp : BitVec 4) (r : List CopMessage) (s : State) : mode (copDone cp r s) = mode s := rfl
@[simp] theorem mode_setDbgAbt (b : Bool) (s : State) : mode (setDbgAbt b s) = mode s := rfl
@[simp] theorem mode_latched (a : Access) (v : Word) (s : State) : mode (latched a v s) = mode s := rfl
@[simp] theorem mode_latchedAbort (a : Access) (v : Word) (s : State) : mode (latchedAbort a v s) = mode s := by
  simp [mode]
@[simp] theorem mode_perform (a : Access) (v : Word) (s : State) : mode (perform a v s) = mode s := by simp [mode]
@[simp] theorem thumb_setReg (n : Reg) (v : Word) (s : State) : thumb (setReg n v s) = thumb s := by simp [thumb]
@[simp] theorem thumb_advance (n : Word) (s : State) : thumb (advance n s) = thumb s := rfl
@[simp] theorem thumb_branchTo (a : Word) (s : State) : thumb (branchTo a s) = thumb s := rfl
@[simp] theorem thumb_writeMem (z : Size) (a v : Word) (s : State) : thumb (writeMem z a v s) = thumb s := rfl

/-! The CHAINOUT latch after fetches: nothing else changes. -/

@[simp] theorem fetched_regs (s : State) : (fetched s).regs = s.regs := rfl
@[simp] theorem fetched_pc (s : State) : (fetched s).pc = s.pc := rfl
@[simp] theorem fetched_cpsr (s : State) : (fetched s).cpsr = s.cpsr := rfl
@[simp] theorem fetched_spsrFiq (s : State) : (fetched s).spsrFiq = s.spsrFiq := rfl
@[simp] theorem fetched_spsrIrq (s : State) : (fetched s).spsrIrq = s.spsrIrq := rfl
@[simp] theorem fetched_spsrSvc (s : State) : (fetched s).spsrSvc = s.spsrSvc := rfl
@[simp] theorem fetched_spsrAbt (s : State) : (fetched s).spsrAbt = s.spsrAbt := rfl
@[simp] theorem fetched_spsrUnd (s : State) : (fetched s).spsrUnd = s.spsrUnd := rfl
@[simp] theorem fetched_mem (s : State) : (fetched s).mem = s.mem := rfl
@[simp] theorem fetched_imem (s : State) : (fetched s).imem = s.imem := rfl
@[simp] theorem fetched_pins (s : State) : (fetched s).pins = s.pins := rfl
@[simp] theorem fetched_lines (s : State) : (fetched s).lines = s.lines := rfl
@[simp] theorem fetched_debug (s : State) : (fetched s).dbg = s.dbg := rfl
@[simp] theorem fetched_cops (s : State) : (fetched s).cops = s.cops := rfl
@[simp] theorem fetched_accessRules (s : State) : (fetched s).accessRules = s.accessRules := rfl
@[simp] theorem fetched_inputs (s : State) : (fetched s).inputs = s.inputs := rfl
@[simp] theorem fetched_stale (s : State) : (fetched s).stale = s.stale := rfl
@[simp] theorem fetched_pcWrapped (s : State) : (fetched s).pcWrapped = s.pcWrapped := rfl
@[simp] theorem fetched_userBankHazard (s : State) : (fetched s).userBankHazard = s.userBankHazard := rfl
@[simp] theorem fetched_vectorEntered (s : State) : (fetched s).vectorEntered = s.vectorEntered := rfl
@[simp] theorem fetched_tick (s : State) : (fetched s).tick = s.tick := rfl
@[simp] theorem mode_fetched (s : State) : mode (fetched s) = mode s := rfl
@[simp] theorem thumb_fetched (s : State) : thumb (fetched s) = thumb s := rfl

@[simp] theorem prefetched_regs (s : State) : (prefetched s).regs = s.regs := rfl
@[simp] theorem prefetched_pc (s : State) : (prefetched s).pc = s.pc := rfl
@[simp] theorem prefetched_cpsr (s : State) : (prefetched s).cpsr = s.cpsr := rfl
@[simp] theorem prefetched_spsrFiq (s : State) : (prefetched s).spsrFiq = s.spsrFiq := rfl
@[simp] theorem prefetched_spsrIrq (s : State) : (prefetched s).spsrIrq = s.spsrIrq := rfl
@[simp] theorem prefetched_spsrSvc (s : State) : (prefetched s).spsrSvc = s.spsrSvc := rfl
@[simp] theorem prefetched_spsrAbt (s : State) : (prefetched s).spsrAbt = s.spsrAbt := rfl
@[simp] theorem prefetched_spsrUnd (s : State) : (prefetched s).spsrUnd = s.spsrUnd := rfl
@[simp] theorem prefetched_mem (s : State) : (prefetched s).mem = s.mem := rfl
@[simp] theorem prefetched_imem (s : State) : (prefetched s).imem = s.imem := rfl
@[simp] theorem prefetched_pins (s : State) : (prefetched s).pins = s.pins := rfl
@[simp] theorem prefetched_lines (s : State) : (prefetched s).lines = s.lines := rfl
@[simp] theorem prefetched_debug (s : State) : (prefetched s).dbg = s.dbg := rfl
@[simp] theorem prefetched_cops (s : State) : (prefetched s).cops = s.cops := rfl
@[simp] theorem prefetched_accessRules (s : State) : (prefetched s).accessRules = s.accessRules := rfl
@[simp] theorem prefetched_inputs (s : State) : (prefetched s).inputs = s.inputs := rfl
@[simp] theorem prefetched_stale (s : State) : (prefetched s).stale = s.stale := rfl
@[simp] theorem prefetched_pcWrapped (s : State) : (prefetched s).pcWrapped = s.pcWrapped := rfl
@[simp] theorem prefetched_userBankHazard (s : State) : (prefetched s).userBankHazard = s.userBankHazard := rfl
@[simp] theorem prefetched_vectorEntered (s : State) : (prefetched s).vectorEntered = s.vectorEntered := rfl
@[simp] theorem prefetched_tick (s : State) : (prefetched s).tick = s.tick := rfl
@[simp] theorem mode_prefetched (s : State) : mode (prefetched s) = mode s := rfl
@[simp] theorem thumb_prefetched (s : State) : thumb (prefetched s) = thumb s := rfl

/-- Fetches that all agree with the CHAINOUT latch leave the state as it is. -/
theorem maybeFetched_agrees {ks : List Nat} {s : State} (h : ks.all (fetchAgrees s) = true) : maybeFetched ks s = s := by
  simp [maybeFetched, h]

/-- What fetches do to the CHAINOUT latch that they may not agree with is not known; nothing else changes. -/
theorem maybeFetched_cases (ks : List Nat) (s : State) :
    maybeFetched ks s = s ∨ maybeFetched ks s = { s with chainOut := Config.chainOut s.tick 0 } := by
  by_cases h : ks.all (fetchAgrees s) = true
  · exact .inl (maybeFetched_agrees h)
  · exact .inr (by simp [maybeFetched, h])

/-- With the comparators off no fetch is selected. -/
theorem fetchAgrees_off {s : State} (h : comparatorsOn s = false) (k : Nat) : fetchAgrees s k = true := by
  simp [fetchAgrees, unit1Selects, h]

theorem latchFetch_off {s : State} (h : comparatorsOn s = false) : latchFetch s = s := by
  simp [latchFetch, latchAfter, unit1Selects, h]

theorem prefetched_off {s : State} (h : comparatorsOn s = false) : prefetched s = s :=
  maybeFetched_agrees (by simp [fetchAgrees_off h])

theorem fetched_off {s : State} (h : comparatorsOn s = false) : fetched s = s := by
  rw [fetched, latchFetch_off h]
  exact maybeFetched_agrees (by simp [fetchAgrees_off h])

theorem latchFetch_selected {s : State} (h : unit1Selects s (fetchAccess s) = true) :
    (latchFetch s).chainOut = s.dbg.wp1.dataMatches (instrBus s) := by
  simp [latchFetch, latchAfter, h]

/-- A unit whose data field is masked matches every word. -/
theorem Watchpoint.dataMatches_masked {w : Watchpoint} (h : w.dataMask = 0xFFFFFFFF) (bus : Word) :
    w.dataMatches bus = true := by
  simp [Watchpoint.dataMatches, h]

/-- The CHAINOUT latch is set after the fetch of an instruction that unit 1 selects with its data masked, whatever the core
fetches ahead without an abort (10_state.md R71). -/
theorem fetched_masked {s : State} (hm : s.dbg.wp1.dataMask = 0xFFFFFFFF)
    (hs : unit1Selects s (fetchAccess s) = true) (ha : ∀ a, platformAborts s a = false) :
    (fetched s).chainOut = true := by
  have hc : (latchFetch s).chainOut = true := by
    rw [latchFetch_selected hs, Watchpoint.dataMatches_masked hm]
  have hd : ∀ bus, (latchFetch s).dbg.wp1.dataMatches bus = true := Watchpoint.dataMatches_masked hm
  have ha' : ∀ a, platformAborts (latchFetch s) a = false := ha
  rw [fetched, maybeFetched_agrees]
  · exact hc
  · simp [fetchAgrees, hc, hd, ha']

/-! A reset during the run. -/

@[simp] theorem resetMachine_mem (s : State) : (resetMachine s).mem = s.mem := by simp [resetMachine]
@[simp] theorem resetMachine_imem (s : State) : (resetMachine s).imem = s.imem := by simp [resetMachine]
@[simp] theorem resetMachine_pins (s : State) : (resetMachine s).pins = s.pins := by simp [resetMachine]
@[simp] theorem resetMachine_lines (s : State) : (resetMachine s).lines = s.lines := by simp [resetMachine]
@[simp] theorem resetMachine_debug (s : State) : (resetMachine s).dbg = s.dbg := by simp [resetMachine]
@[simp] theorem resetMachine_chainOut (s : State) : (resetMachine s).chainOut = s.chainOut := by simp [resetMachine]
@[simp] theorem resetMachine_cops (s : State) : (resetMachine s).cops = s.cops := by simp [resetMachine]
@[simp] theorem resetMachine_accessRules (s : State) : (resetMachine s).accessRules = s.accessRules := by simp [resetMachine]
@[simp] theorem resetMachine_inputs (s : State) : (resetMachine s).inputs = s.inputs := by simp [resetMachine]
@[simp] theorem resetMachine_pc (s : State) : (resetMachine s).pc = vectorBase s := by simp [resetMachine]
@[simp] theorem resetMachine_cpsr (s : State) :
    (resetMachine s).cpsr = push (push 0 (Config.resetCpsr s.tick)) 0xD3#8 := by
  simp only [resetMachine]
@[simp] theorem resetMachine_tick (s : State) : (resetMachine s).tick = s.tick + 1 := by simp [resetMachine]
@[simp] theorem resetMachine_vectorEntered (s : State) : (resetMachine s).vectorEntered = some .reset := by
  simp [resetMachine]
@[simp] theorem resetMachine_stale (s : State) : (resetMachine s).stale = [] := by simp [resetMachine]
@[simp] theorem resetMachine_pcWrapped (s : State) : (resetMachine s).pcWrapped = false := by simp [resetMachine]
@[simp] theorem resetMachine_userBankHazard (s : State) : (resetMachine s).userBankHazard = false := by
  simp [resetMachine]
@[simp] theorem abandoned_imem (s t : State) : (abandoned s t).imem = s.imem := rfl
@[simp] theorem abandoned_pins (s t : State) : (abandoned s t).pins = s.pins := rfl
@[simp] theorem abandoned_lines (s t : State) : (abandoned s t).lines = s.lines := rfl
@[simp] theorem abandoned_accessRules (s t : State) : (abandoned s t).accessRules = s.accessRules := rfl
@[simp] theorem abandoned_inputs (s t : State) : (abandoned s t).inputs = s.inputs := rfl
@[simp] theorem abandoned_tick (s t : State) : (abandoned s t).tick = s.tick := rfl

end Sys2Proof.Machine
end

