-- ==== Sys2Proof/Laws/Memory.lean ====
section
/-! SUPPORT. The byte memory: a write is read back, other bytes stay, and the canonical form is kept. -/

set_option Elab.async false

namespace Sys2Proof.Machine

theorem memWfFrom_weaken (m : List Host.Cell) (lo lo' : Nat) (h : lo' ≤ lo) (hw : memWfFrom lo m = true) :
    memWfFrom lo' m = true := by
  cases m with
  | nil => rfl
  | cons p m =>
    obtain ⟨a, b⟩ := p
    simp only [memWfFrom, Bool.and_eq_true, decide_eq_true_eq] at hw ⊢
    exact ⟨⟨⟨by omega, hw.1.1.2⟩, hw.1.2⟩, hw.2⟩

/-- Below every listed address a memory reads as unlisted. -/
theorem memGet_below (m : List Host.Cell) (lo x : Nat) (hx : x < lo) (hw : memWfFrom lo m = true) :
    memGet m x = unlistedByte := by
  induction m generalizing lo with
  | nil => rfl
  | cons p m ih =>
    obtain ⟨a, b⟩ := p
    simp only [memWfFrom, Bool.and_eq_true, decide_eq_true_eq] at hw
    rw [memGet, if_neg (by omega)]
    exact ih (a + 1) (by omega) hw.2

/-- A byte elsewhere is as before, whatever the form of the memory. -/
theorem memGet_memPut_other (m : List Host.Cell) (x y : Nat) (v : Byte) (h : y ≠ x) :
    memGet (memPut m x v) y = memGet m y := by
  induction m with
  | nil =>
    unfold memPut
    split <;> simp [memGet, Ne.symm h]
  | cons p m ih =>
    obtain ⟨a, b⟩ := p
    have h' : ¬ x = y := fun e => h e.symm
    unfold memPut
    repeat' split
    all_goals (try subst x); simp_all [memGet]

/-- The byte written is read back. -/
theorem memGet_memPut_same (m : List Host.Cell) (lo x : Nat) (v : Byte) (hw : memWfFrom lo m = true) :
    memGet (memPut m x v) x = v := by
  induction m generalizing lo with
  | nil =>
    unfold memPut
    split <;> simp_all [memGet]
  | cons p m ih =>
    obtain ⟨a, b⟩ := p
    simp only [memWfFrom, Bool.and_eq_true, decide_eq_true_eq] at hw
    unfold memPut
    split
    · split
      · rename_i h1 h2
        rw [memGet, if_neg (by omega), memGet_below m (a + 1) x (by omega) hw.2, h2]
      · simp [memGet]
    · split
      · split
        · rename_i h1 h2 h3
          rw [memGet_below m (a + 1) x (by omega) hw.2, h3]
        · simp [memGet]
      · rename_i h1 h2
        rw [memGet, if_neg (fun e => h2 e.symm)]
        exact ih (a + 1) hw.2

/-- A write of one byte keeps the canonical form. -/
theorem memWfFrom_memPut (m : List Host.Cell) (lo x : Nat) (v : Byte) (hx : lo ≤ x) (hx' : x < 2 ^ 32)
    (hw : memWfFrom lo m = true) : memWfFrom lo (memPut m x v) = true := by
  induction m generalizing lo with
  | nil =>
    unfold memPut
    split
    · rfl
    · simp_all [memWfFrom]
  | cons p m ih =>
    obtain ⟨a, b⟩ := p
    have hw' := hw
    simp only [memWfFrom, Bool.and_eq_true, decide_eq_true_eq] at hw'
    unfold memPut
    split
    · split
      · exact hw
      · simp only [memWfFrom, Bool.and_eq_true, decide_eq_true_eq]
        refine ⟨⟨⟨hx, hx'⟩, by assumption⟩, ⟨⟨?_, hw'.1.1.2⟩, hw'.1.2⟩, hw'.2⟩
        omega
    · split
      · split
        · exact memWfFrom_weaken m (a + 1) lo (by omega) hw'.2
        · simp only [memWfFrom, Bool.and_eq_true, decide_eq_true_eq]
          rename_i h1 h2 h3
          subst h2
          exact ⟨⟨⟨hx, hx'⟩, h3⟩, hw'.2⟩
      · simp only [memWfFrom, Bool.and_eq_true, decide_eq_true_eq]
        exact ⟨⟨⟨hw'.1.1.1, hw'.1.1.2⟩, hw'.1.2⟩, ih (a + 1) (by omega) hw'.2⟩

theorem Memory.wf_memPut (m : List Host.Cell) (x : Nat) (v : Byte) (hx : x < 2 ^ 32) (hw : Memory.wf m = true) :
    Memory.wf (memPut m x v) = true := memWfFrom_memPut m 0 x v (Nat.zero_le _) hx hw

/-- A write of several bytes keeps the canonical form. -/
theorem Memory.wf_memPutBytes (bs : List Byte) (m : List Host.Cell) (x : Nat) (hx : x + bs.length ≤ 2 ^ 32)
    (hw : Memory.wf m = true) : Memory.wf (memPutBytes m x bs) = true := by
  induction bs generalizing m x with
  | nil => exact hw
  | cons b bs ih =>
    simp only [List.length_cons] at hx
    exact ih (memPut m x b) (x + 1) (by omega) (Memory.wf_memPut m x b (by omega) hw)

/-- A byte outside the ones written is as before. -/
theorem memGet_memPutBytes_other (bs : List Byte) (m : List Host.Cell) (x y : Nat) (h : y < x ∨ x + bs.length ≤ y) :
    memGet (memPutBytes m x bs) y = memGet m y := by
  induction bs generalizing m x with
  | nil => rfl
  | cons b bs ih =>
    simp only [List.length_cons] at h
    rw [memPutBytes, ih (memPut m x b) (x + 1) (by omega), memGet_memPut_other m x y b (by omega)]

/-- Bytes written are read back. -/
theorem memGetBytes_memPutBytes (bs : List Byte) (m : List Host.Cell) (x : Nat) (hx : x + bs.length ≤ 2 ^ 32)
    (hw : Memory.wf m = true) : memGetBytes (memPutBytes m x bs) x bs.length = bs := by
  induction bs generalizing m x with
  | nil => rfl
  | cons b bs ih =>
    simp only [List.length_cons] at hx ⊢
    have hw' := Memory.wf_memPut m x b (by omega) hw
    rw [memGetBytes, memPutBytes, ih (memPut m x b) (x + 1) (by omega) hw',
      memGet_memPutBytes_other bs _ (x + 1) x (by omega), memGet_memPut_same m 0 x b hw]

@[simp] theorem laneBytes_length (big : Bool) (z : Size) (v : Word) : (laneBytes big z v).length = z.bytes := by
  cases big <;> cases z <;> rfl

/-- An access lies in the address space. -/
theorem Size.align_bytes_le (z : Size) (a : Word) : (z.align a).toNat + z.bytes ≤ 2 ^ 32 := by
  have h := a.isLt
  cases z with
  | byte => simp only [Size.align, Size.bytes]; omega
  | half =>
    simp only [Size.align, Size.bytes]
    have : (a &&& 0xFFFFFFFE).toNat ≤ 0xFFFFFFFE := Nat.and_le_right
    omega
  | word =>
    simp only [Size.align, Size.bytes]
    have : (a &&& 0xFFFFFFFC).toNat ≤ 0xFFFFFFFC := Nat.and_le_right
    omega

/-- A store keeps the canonical form of memory. -/
theorem writeMem_wf (z : Size) (a v : Word) (s : State) (hw : Memory.wf s.mem = true) :
    Memory.wf (writeMem z a v s).mem = true := by
  rw [writeMem_mem]
  exact Memory.wf_memPutBytes _ _ _ (by rw [laneBytes_length]; exact Size.align_bytes_le z a) hw

/-- A store leaves every byte outside its own as it was. -/
theorem writeMem_other (z : Size) (a v : Word) (s : State) (y : Nat)
    (h : y < (z.align a).toNat ∨ (z.align a).toNat + z.bytes ≤ y) : memGet (writeMem z a v s).mem y = memGet s.mem y := by
  rw [writeMem_mem]
  exact memGet_memPutBytes_other _ _ _ _ (by rw [laneBytes_length]; exact h)

/-- The bytes a store wrote. -/
theorem writeMem_same (z : Size) (a v : Word) (s : State) (hw : Memory.wf s.mem = true) :
    memGetBytes (writeMem z a v s).mem (z.align a).toNat z.bytes = laneBytes s.pins.bigEndian z v := by
  have := memGetBytes_memPutBytes (laneBytes s.pins.bigEndian z v) s.mem (z.align a).toNat
    (by rw [laneBytes_length]; exact Size.align_bytes_le z a) hw
  rwa [laneBytes_length] at this

/-- A change made by the memory system keeps the canonical form. -/
theorem wf_memPut_word (m : List Host.Cell) (a : Word) (v : Byte) (hw : Memory.wf m = true) :
    Memory.wf (memPut m a.toNat v) = true := Memory.wf_memPut m a.toNat v a.isLt hw

theorem reset_memory_wf : Memory.wf State.reset.mem = true ∧ Memory.wf State.reset.imem = true := ⟨rfl, rfl⟩

end Sys2Proof.Machine
end

