-- ==== Sys2Proof/Laws/Registers.lean ====
section
/-! SUPPORT. Reading a register after writing one: the banks of spec/10_state.md R34. -/

set_option Elab.async false

namespace Sys2Proof.Machine

/-- Two registers of one mode lie in different places. -/
theorem bankIndex_inj (m : ModeBits) (a b : Reg) (ha : a ≠ 15) (hb : b ≠ 15) (h : bankIndex m a = bankIndex m b) :
    a = b := by
  have ha' : a.toNat ≠ 15 := fun e => ha (BitVec.eq_of_toNat_eq (by simpa using e))
  have hb' : b.toNat ≠ 15 := fun e => hb (BitVec.eq_of_toNat_eq (by simpa using e))
  have hal := a.isLt
  have hbl := b.isLt
  apply BitVec.eq_of_toNat_eq
  unfold bankIndex at h
  repeat' split at h
  all_goals omega

/-- What a register of any mode reads after one is written. -/
theorem regAt_setRegAt (m m' : ModeBits) (n n' : Reg) (v : Word) (s : State) (h : n ≠ 15) :
    regAt (setRegAt m n v s) m' n' = if bankIndex m n = bankIndex m' n' then v else regAt s m' n' := by
  unfold regAt setRegAt
  rw [if_neg h]
  exact Vector.getElem_set (bankIndex_lt m n) (bankIndex_lt m' n')

theorem regAt_setRegAt_same (m : ModeBits) (n : Reg) (v : Word) (s : State) (h : n ≠ 15) :
    regAt (setRegAt m n v s) m n = v := by
  rw [regAt_setRegAt m m n n v s h, if_pos rfl]

theorem regAt_setRegAt_other (m m' : ModeBits) (n n' : Reg) (v : Word) (s : State)
    (h : bankIndex m' n' ≠ bankIndex m n) : regAt (setRegAt m n v s) m' n' = regAt s m' n' := by
  by_cases hn : n = 15
  · simp [setRegAt, hn]
  · rw [regAt_setRegAt m m' n n' v s hn, if_neg (Ne.symm h)]

theorem regAt_setReg_same (n : Reg) (v : Word) (s : State) (h : n ≠ 15) : regAt (setReg n v s) (mode s) n = v :=
  regAt_setRegAt_same _ _ _ _ h

theorem regAt_setReg_other (m : ModeBits) (n n' : Reg) (v : Word) (s : State)
    (h : bankIndex m n' ≠ bankIndex (mode s) n) : regAt (setReg n v s) m n' = regAt s m n' :=
  regAt_setRegAt_other _ _ _ _ _ _ h

/-- Registers do not depend on the rest of the state. -/
theorem regAt_congr {s t : State} (h : t.regs = s.regs) (m : ModeBits) (n : Reg) : regAt t m n = regAt s m n := by
  unfold regAt; simp only [h]

@[simp] theorem regAt_advance (k : Word) (s : State) (m : ModeBits) (n : Reg) : regAt (advance k s) m n = regAt s m n := rfl
@[simp] theorem regAt_branchTo (a : Word) (s : State) (m : ModeBits) (n : Reg) : regAt (branchTo a s) m n = regAt s m n :=
  rfl
@[simp] theorem regAt_setCpsr (v : Word) (s : State) (m : ModeBits) (n : Reg) : regAt (setCpsr v s) m n = regAt s m n :=
  rfl
@[simp] theorem regAt_setT (b : Bool) (s : State) (m : ModeBits) (n : Reg) : regAt (setT b s) m n = regAt s m n := rfl
@[simp] theorem regAt_setDbgAbt (b : Bool) (s : State) (m : ModeBits) (n : Reg) :
    regAt (setDbgAbt b s) m n = regAt s m n := rfl
@[simp] theorem regAt_copDone (cp : BitVec 4) (r : List CopMessage) (s : State) (m : ModeBits) (n : Reg) :
    regAt (copDone cp r s) m n = regAt s m n := rfl
@[simp] theorem regAt_writeMem (z : Size) (a v : Word) (s : State) (m : ModeBits) (n : Reg) :
    regAt (writeMem z a v s) m n = regAt s m n := rfl
@[simp] theorem regAt_setSpsrAt (k : ModeBits) (v : Word) (s : State) (m : ModeBits) (n : Reg) :
    regAt (setSpsrAt k v s) m n = regAt s m n := regAt_congr (by simp) m n

/-- The SPSR of a mode after it is written. -/
theorem spsrAt_setSpsrAt_same (m : ModeBits) (v : Word) (s : State) (h : (spsrAt s m).isSome) :
    spsrAt (setSpsrAt m v s) m = some v := by
  unfold spsrAt at h
  unfold spsrAt setSpsrAt
  repeat' split
  all_goals simp_all

/-- The SPSR of another mode. -/
theorem spsrAt_setSpsrAt_other (m m' : ModeBits) (v : Word) (s : State) (h : m' ≠ m) :
    spsrAt (setSpsrAt m v s) m' = spsrAt s m' := by
  unfold setSpsrAt
  repeat' split
  all_goals (try subst m); simp [spsrAt, h]

@[simp] theorem spsrAt_setRegAt (m m' : ModeBits) (n : Reg) (v : Word) (s : State) :
    spsrAt (setRegAt m n v s) m' = spsrAt s m' := by simp [spsrAt]
@[simp] theorem spsrAt_setReg (m' : ModeBits) (n : Reg) (v : Word) (s : State) :
    spsrAt (setReg n v s) m' = spsrAt s m' := spsrAt_setRegAt _ _ _ _ _
@[simp] theorem spsr_setReg (n : Reg) (v : Word) (s : State) : spsr (setReg n v s) = spsr s := by simp [spsr]

end Sys2Proof.Machine
end

