-- ==== Sys2Proof/Laws/Frames.lean ====
section
/-! SUPPORT. What the shared endings of instructions write and keep. -/

set_option Elab.async false

namespace Sys2Proof.Machine

theorem whenPassed_of_passed {c : Cond} {s : State} (h : condPassed c s.cpsr = true) (r : Result) :
    whenPassed c s r = r := by simp [whenPassed, h]

/-- What a conditional instruction can answer. -/
theorem whenPassed_next {c : Cond} {s t : State} {r : Result} (h : whenPassed c s r = .next t) :
    (condPassed c s.cpsr = true ∧ r = .next t) ∨ (condPassed c s.cpsr = false ∧ t = advance 4 s) := by
  unfold whenPassed at h
  split at h
  · exact .inl ⟨by assumption, h⟩
  · rename_i hc
    refine .inr ⟨by simpa using hc, ?_⟩
    cases h
    rfl

theorem specialsKept_of {s t : State} (h1 : t.spsrFiq = s.spsrFiq) (h2 : t.spsrIrq = s.spsrIrq)
    (h3 : t.spsrSvc = s.spsrSvc) (h4 : t.spsrAbt = s.spsrAbt) (h5 : t.spsrUnd = s.spsrUnd) (h6 : t.pins = s.pins)
    (h7 : t.lines = s.lines) (h8 : t.accessRules = s.accessRules) (h9 : t.inputs = s.inputs) (h10 : t.tick = s.tick)
    (h11 : t.dbg = s.dbg) (h12 : t.cops = s.cops) (h13 : t.userBankHazard = s.userBankHazard)
    (h14 : t.vectorEntered = s.vectorEntered) (h15 : t.chainOut = s.chainOut) : SpecialsKept s t :=
  ⟨⟨h1, h2, h3, h4, h5⟩, ⟨h6, h7, h8, h9, h10⟩, h11, fun _ => h15, h12, h13, h14⟩

/-- Unit 1 selects no data access while bit 3 of its control value is clear. -/
theorem unit1Selects_data (s : State) (a : Access) (ha : a.fetch = false) (h : flag 3 s.dbg.wp1.ctlValue = false) :
    unit1Selects s a = false := by
  have hb : ∀ range chain ext, (((fld 0 8 s.dbg.wp1.ctlValue ^^^ controlBus range chain ext a) &&&
      ~~~(s.dbg.wp1.controlIgnored a.fetch)) == 0) = false := by
    intro range chain ext
    rw [beq_eq_false_iff_ne]
    intro e
    have e3 := congrArg (fun x : BitVec 8 => x.getLsbD 3) e
    have h3 : (controlBus range chain ext a).getLsbD 3 = true := by
      unfold controlBus
      rw [ha]
      generalize a.sizeBits = z
      cases range <;> cases chain <;> cases ext <;> cases a.priv <;> cases a.write <;> revert z <;> decide
    have hf : (fld 0 8 s.dbg.wp1.ctlValue).getLsbD 3 = false := by
      simpa [fld, flag, BitVec.getLsbD_extractLsb'] using h
    have hi : (s.dbg.wp1.controlIgnored a.fetch).getLsbD 3 = false := by
      simp [Watchpoint.controlIgnored, ha]
    simp only [BitVec.getLsbD_and, BitVec.getLsbD_xor, BitVec.getLsbD_not, h3, hf, hi] at e3
    exact absurd e3 (by decide)
  rw [unit1Selects, Watchpoint.selects, hb, Bool.and_false, Bool.and_false]

/-- An access writes the CHAINOUT latch only where `LatchKept` says so. -/
theorem latchKept_access {s t : State} (a : Access) (ha : a.fetch = false) (d : Bool)
    (h : t.chainOut = latchAfter s a d) : LatchKept s t := by
  intro hk
  rw [h, latchAfter]
  have : unit1Selects s a = false := by
    rcases Bool.and_eq_false_iff.mp hk with h0 | h0
    · simp [unit1Selects, h0]
    · exact unit1Selects_data s a ha h0
  simp [this]

theorem latchKept_latched (a : Access) (ha : a.fetch = false) (v : Word) (s : State) : LatchKept s (latched a v s) :=
  latchKept_access a ha _ rfl

theorem latchKept_latchedAbort (a : Access) (ha : a.fetch = false) (v : Word) (s : State) :
    LatchKept s (latchedAbort a v s) := by
  unfold latchedAbort
  split
  · exact latchKept_latched a ha v s
  · exact latchKept_access a ha _ rfl

theorem LatchKept.of_eq {s t : State} (h : t.chainOut = s.chainOut) : LatchKept s t := fun _ => h

theorem LatchKept.trans {s t u : State} (h : LatchKept s t) (h' : LatchKept t u) (hp : t.pins = s.pins)
    (hd : t.dbg = s.dbg) : LatchKept s u := by
  intro hk
  rw [h' (by simpa [comparatorsOn, hp, hd] using hk), h hk]

theorem memKept_of {s t : State} (h : t.mem = s.mem) (h' : t.imem = s.imem) : MemKept s t :=
  ⟨fun _ => by rw [h], fun _ => by rw [h']⟩

theorem regsKept_of {s t : State} (h : t.regs = s.regs) (l : List (ModeBits × Reg)) : RegsKept s t l :=
  fun m n _ _ => regAt_congr h m n

theorem RegsKept.mono {s t : State} {l l' : List (ModeBits × Reg)} (h : RegsKept s t l) (hl : ∀ p ∈ l, p ∈ l') :
    RegsKept s t l' := fun m n hn hp => h m n hn fun p hm => hp p (hl p hm)

theorem RegsKept.trans {s t u : State} {l : List (ModeBits × Reg)} (h : RegsKept s t l) (h' : RegsKept t u l) :
    RegsKept s u l := fun m n hn hp => (h' m n hn hp).trans (h m n hn hp)

theorem regsKept_setRegAt (m : ModeBits) (n : Reg) (v : Word) (s : State) : RegsKept s (setRegAt m n v s) [(m, n)] :=
  fun m' n' _ hp => regAt_setRegAt_other m m' n n' v s (hp (m, n) (by simp))

theorem regsKept_setReg (n : Reg) (v : Word) (s : State) : RegsKept s (setReg n v s) [(mode s, n)] :=
  regsKept_setRegAt (mode s) n v s

/-- The end of an instruction that writes a register and the CPSR. -/
theorem writesReg_setCpsr (s : State) (len : Word) (rd : Reg) (v f : Word) (h : rd ≠ 15) :
    WritesReg s len rd v f (advance len (setCpsr f (setReg rd v s))) where
  result := by simpa using regAt_setReg_same rd v s h
  others := fun m n hn hp => by simpa using regsKept_setReg rd v s m n hn hp
  cpsr := by simp
  pc := by simp
  specials := specialsKept_of (by simp) (by simp) (by simp) (by simp) (by simp) (by simp) (by simp) (by simp) (by simp)
    (by simp) (by simp) (by simp) (by simp) (by simp) (by simp)
  latch := by simp
  memory := memKept_of (by simp) (by simp)

/-- The end of an instruction that writes a register. -/
theorem writesReg_setReg (s : State) (len : Word) (rd : Reg) (v : Word) (h : rd ≠ 15) :
    WritesReg s len rd v s.cpsr (advance len (setReg rd v s)) where
  result := by simpa using regAt_setReg_same rd v s h
  others := fun m n hn hp => by simpa using regsKept_setReg rd v s m n hn hp
  cpsr := by simp
  pc := by simp
  specials := specialsKept_of (by simp) (by simp) (by simp) (by simp) (by simp) (by simp) (by simp) (by simp) (by simp)
    (by simp) (by simp) (by simp) (by simp) (by simp) (by simp)
  latch := by simp
  memory := memKept_of (by simp) (by simp)

/-- The end of an instruction that writes a pair of registers and the CPSR. -/
theorem writesPair_setCpsr (s : State) (len : Word) (hi lo : Reg) (v : BitVec 64) (f : Word) (hh : hi ≠ 15) (hl : lo ≠ 15)
    (hne : hi ≠ lo) :
    WritesPair s len hi lo (fld 32 32 v) (fld 0 32 v) f (advance len (setCpsr f (setRegPair hi lo v s))) where
  high := by
    rw [regAt_advance, regAt_setCpsr, setRegPair, regAt_setReg_other, regAt_setReg_same _ _ _ hh]
    rw [mode_setReg]
    exact fun e => hne (bankIndex_inj _ _ _ hh hl e)
  low := by
    rw [regAt_advance, regAt_setCpsr, setRegPair, ← mode_setReg hi (fld 32 32 v) s, regAt_setReg_same _ _ _ hl]
  others := fun m n hn hp => by
    have h1 := hp (mode s, hi) (by simp)
    have h2 := hp (mode s, lo) (by simp)
    rw [regAt_advance, regAt_setCpsr, setRegPair, regAt_setReg_other _ _ _ _ _ (by simpa using h2),
      regAt_setReg_other _ _ _ _ _ h1]
  cpsr := by simp
  pc := by simp [setRegPair]
  specials := by
    refine specialsKept_of ?_ ?_ ?_ ?_ ?_ ?_ ?_ ?_ ?_ ?_ ?_ ?_ ?_ ?_ ?_ <;> simp [setRegPair]
  latch := by simp [setRegPair]
  memory := memKept_of (by simp [setRegPair]) (by simp [setRegPair])

/-- The end of an instruction that writes a pair of registers. -/
theorem writesPair_setRegPair (s : State) (len : Word) (hi lo : Reg) (v : BitVec 64) (hh : hi ≠ 15) (hl : lo ≠ 15)
    (hne : hi ≠ lo) :
    WritesPair s len hi lo (fld 32 32 v) (fld 0 32 v) s.cpsr (advance len (setRegPair hi lo v s)) := by
  have h := writesPair_setCpsr s len hi lo v s.cpsr hh hl hne
  have e : setCpsr s.cpsr (setRegPair hi lo v s) = setRegPair hi lo v s := by
    have : (setRegPair hi lo v s).cpsr = s.cpsr := by simp [setRegPair]
    rw [← this]
    rfl
  rwa [e] at h

/-- Rewriting the values of a result. -/
theorem WritesReg.congr {s t : State} {len : Word} {rd : Reg} {v v' f f' : Word} (h : WritesReg s len rd v f t)
    (hv : v = v') (hf : f = f') : WritesReg s len rd v' f' t := hv ▸ hf ▸ h

theorem Branches.congr {s t : State} {a a' f : Word} {l : Option Word} (h : Branches s a f l t) (ha : a = a') :
    Branches s a' f l t := ha ▸ h

/-- The end of an instruction that writes only the CPSR. -/
theorem writesFlags_setCpsr (s : State) (len f : Word) : WritesFlags s len f (advance len (setCpsr f s)) where
  regs := regsKept_of (by simp) _
  cpsr := by simp
  pc := by simp
  specials := specialsKept_of (by simp) (by simp) (by simp) (by simp) (by simp) (by simp) (by simp) (by simp) (by simp)
    (by simp) (by simp) (by simp) (by simp) (by simp) (by simp)
  latch := by simp
  memory := memKept_of (by simp) (by simp)

/-- Moving to the next instruction. -/
theorem writesFlags_advance (s : State) (len : Word) : WritesFlags s len s.cpsr (advance len s) :=
  writesFlags_setCpsr s len s.cpsr

/-- A branch that replaces the CPSR. -/
theorem branches_setCpsr (s : State) (a f : Word) : Branches s a f none (branchTo a (setCpsr f s)) where
  pc := rfl
  cpsr := rfl
  linked := by simp
  others := regsKept_of rfl _
  specials := specialsKept_of rfl rfl rfl rfl rfl rfl rfl rfl rfl rfl rfl rfl rfl rfl rfl
  latch := rfl
  memory := memKept_of rfl rfl
  refilled := rfl

/-- A branch. -/
theorem branches_branchTo (s : State) (a : Word) : Branches s a s.cpsr none (branchTo a s) := branches_setCpsr s a s.cpsr

/-- A branch with link, through a state that has the link in r14 and a new state bit. -/
theorem branches_link (s : State) (a : Word) (b : Bool) (l : Word) :
    Branches s a (setBit s.cpsr 5 b) (some l) (branchTo a (setT b (setReg 14 l s))) where
  pc := by simp
  cpsr := by simp
  linked := by
    rintro v ⟨⟩
    simpa using regAt_setReg_same 14 l s (by decide)
  others := fun m n hn hp => by simpa using regsKept_setReg 14 l s m n hn hp
  specials := by refine specialsKept_of ?_ ?_ ?_ ?_ ?_ ?_ ?_ ?_ ?_ ?_ ?_ ?_ ?_ ?_ ?_ <;> simp
  latch := by simp
  memory := memKept_of (by simp) (by simp)
  refilled := by simp

/-- A branch with link that keeps the state. -/
theorem branches_link_keep (s : State) (a l : Word) : Branches s a s.cpsr (some l) (branchTo a (setReg 14 l s)) where
  pc := by simp
  cpsr := by simp
  linked := by
    rintro v ⟨⟩
    simpa using regAt_setReg_same 14 l s (by decide)
  others := fun m n hn hp => by simpa using regsKept_setReg 14 l s m n hn hp
  specials := by refine specialsKept_of ?_ ?_ ?_ ?_ ?_ ?_ ?_ ?_ ?_ ?_ ?_ ?_ ?_ ?_ ?_ <;> simp
  latch := by simp
  memory := memKept_of (by simp) (by simp)
  refilled := by simp

/-- Entry to an exception that saves: everything it does. -/
theorem enters_takeException (e : Exception) (link : Word) (s : State) (he : e.entryMode ≠ modeUser)
    (he' : e.entryMode ≠ modeSys) : Enters s e link (takeException e link s) where
  linked := by
    show regAt (setSpsrAt e.entryMode s.cpsr (setRegAt e.entryMode 14 link s)) e.entryMode 14 = link
    rw [regAt_setSpsrAt]
    exact regAt_setRegAt_same _ _ _ _ (by decide)
  saved := by
    show spsrAt (setSpsrAt e.entryMode s.cpsr (setRegAt e.entryMode 14 link s)) e.entryMode = some s.cpsr
    apply spsrAt_setSpsrAt_same
    cases e <;> rfl
  cpsr := by simp
  pc := by simp
  regs := fun m n hn hp => by
    show regAt (setSpsrAt e.entryMode s.cpsr (setRegAt e.entryMode 14 link s)) m n = regAt s m n
    rw [regAt_setSpsrAt]
    exact regsKept_setRegAt _ _ _ _ m n hn hp
  spsrs := fun m hm => by
    show spsrAt (setSpsrAt e.entryMode s.cpsr (setRegAt e.entryMode 14 link s)) m = spsrAt s m
    rw [spsrAt_setSpsrAt_other _ _ _ _ hm, spsrAt_setRegAt]
  memory := memKept_of (by simp) (by simp)
  outside := ⟨by simp, by simp, by simp, by simp, by simp⟩
  dbg := by simp
  latch := .of_eq (by simp)
  cops := by simp

/-- No exception enters User or System mode. -/
theorem Exception.entryMode_privileged (e : Exception) : e.entryMode ≠ modeUser ∧ e.entryMode ≠ modeSys := by
  cases e <;> decide

end Sys2Proof.Machine
end

