-- ==== Sys2Proof/Laws/Transfers.lean ====
section
/-! SUPPORT. Data accesses and multiple transfers: when every access is answered, what they leave. -/

set_option Elab.async false

namespace Sys2Proof.Machine

/-- Two states that show the memory system and the debug logic the same. -/
structure SameBus (s t : State) : Prop where
  pins : t.pins = s.pins
  dbg : t.dbg = s.dbg
  latch : t.chainOut = s.chainOut
  lines : t.lines = s.lines
  rules : t.accessRules = s.accessRules
  tick : t.tick = s.tick
  mode : mode t = mode s

theorem SameBus.refl (s : State) : SameBus s s := ⟨rfl, rfl, rfl, rfl, rfl, rfl, rfl⟩

theorem SameBus.trans {s t u : State} (h : SameBus s t) (h' : SameBus t u) : SameBus s u :=
  ⟨h'.pins.trans h.pins, h'.dbg.trans h.dbg, h'.latch.trans h.latch, h'.lines.trans h.lines, h'.rules.trans h.rules,
    h'.tick.trans h.tick, h'.mode.trans h.mode⟩

theorem SameBus.access {s t : State} (h : SameBus s t) (f : Bool) (z : Size) (w l : Bool) (a : Word) :
    dataAccess t f z w l a = dataAccess s f z w l a := by
  simp [dataAccess, privileged, h.mode]

theorem SameBus.readMem {s t : State} (h : SameBus s t) (hm : t.mem = s.mem) (z : Size) (a : Word) :
    readMem t z a = readMem s z a := by
  simp [Machine.readMem, h.pins, hm]

/-- What the bus carries depends on the value for a write and on memory for a read. -/
theorem SameBus.bus {s t : State} (h : SameBus s t) (a : Access) (v v' : Word)
    (hv : if a.write then v = v' else t.mem = s.mem) : busWord t a v' = busWord s a v := by
  unfold busWord
  split at hv
  · simp [*]
  · rename_i hw
    simp only [hw]
    simpa using h.readMem hv .word a.addr

/-- The answer to an access depends on what the bus shows only. -/
theorem SameBus.answer {s t : State} (h : SameBus s t) (a : Access) (v v' : Word)
    (hv : if a.write then v = v' else t.mem = s.mem) : dataAnswer t a v' = dataAnswer s a v := by
  have hb := h.bus a v v' hv
  unfold dataAnswer
  rw [hb]
  simp [debugMatch, unitsMatch, comparatorsOn, platformAborts, platformIgnores, h.pins, h.dbg, h.latch, h.lines, h.rules]

/-- So does what the CHAINOUT latch makes of it. -/
theorem SameBus.latched {s t : State} (h : SameBus s t) (a : Access) (v v' : Word)
    (hv : if a.write then v = v' else t.mem = s.mem) : SameBus (latched a v s) (latched a v' t) := by
  have hb := h.bus a v v' hv
  refine ⟨h.pins, h.dbg, ?_, h.lines, h.rules, h.tick, h.mode⟩
  simp [Machine.latched, latchAfter, unit1Selects, comparatorsOn, hb, h.pins, h.dbg, h.latch, h.lines]

/-- A read's answer does not depend on the value given. -/
theorem dataAnswer_read (s : State) (f : Bool) (z : Size) (l : Bool) (a v v' : Word) :
    dataAnswer s (dataAccess s f z false l a) v = dataAnswer s (dataAccess s f z false l a) v' :=
  ((SameBus.refl s).answer _ v' v (by simp [dataAccess]))

theorem sameBus_setRegAt (m : ModeBits) (n : Reg) (v : Word) (s : State) : SameBus s (setRegAt m n v s) :=
  ⟨by simp, by simp, by simp, by simp, by simp, by simp, by simp⟩

theorem sameBus_setReg (n : Reg) (v : Word) (s : State) : SameBus s (setReg n v s) := sameBus_setRegAt _ _ _ _

theorem sameBus_writeMem (z : Size) (a v : Word) (s : State) : SameBus s (writeMem z a v s) :=
  ⟨rfl, rfl, rfl, rfl, rfl, rfl, rfl⟩

theorem sameBus_copDone (cp : BitVec 4) (r : List CopMessage) (s : State) : SameBus s (copDone cp r s) :=
  ⟨rfl, rfl, rfl, rfl, rfl, rfl, rfl⟩

theorem guarded_ok {s : State} {a : Access} {v : Word} (h : dataAnswer s a v = .ok) (d : State → State)
    (k : State → Result) : guarded s a v d k = k (latched a v s) := by simp [guarded, h]

theorem guarded_ignored {s : State} {a : Access} {v : Word} (h : dataAnswer s a v = .ignored) (d : State → State)
    (k : State → Result) : guarded s a v d k = k (latched a v s) := by simp [guarded, h]

theorem guarded_abort {s : State} {a : Access} {v : Word} (h : dataAnswer s a v = .abort) (d : State → State)
    (k : State → Result) : guarded s a v d k = .next (dataAbort (latchedAbort a v s)) := by simp [guarded, h]

/-- A watchpoint hit in monitor mode: a Data Abort and DbgAbt, whether or not the access completed. -/
theorem guarded_debugAbort {s : State} {a : Access} {v : Word} (h : dataAnswer s a v = .debugAbort) (d : State → State)
    (k : State → Result) : guarded s a v d k =
      .next (setDbgAbt true (dataAbort (if Config.watchCompletes s.tick then d (latched a v s) else latched a v s))) := by
  simp [guarded, h]

/-- What an answer says of the memory system: only a write is ignored, and an access answered `ok` is performed. -/
theorem platformIgnores_of_answer (s : State) (a : Access) (v : Word) :
    (dataAnswer s a v = .ok → platformIgnores s a = false) ∧
    (dataAnswer s a v = .ignored → platformIgnores s a = true) := by
  unfold dataAnswer
  dsimp only
  split
  · simp
  · split
    · simp
    · split
      · split <;> simp_all
      · simp
      · simp

/-- A write answered `ok` is performed. -/
theorem perform_ok {s : State} {a : Access} {v : Word} (h : dataAnswer s a v = .ok) :
    perform a v (latched a v s) = writeMem a.size a.addr v (latched a v s) := by
  have hp : platformIgnores (latched a v s) a = false := (platformIgnores_of_answer s a v).1 h
  simp [perform, hp]

/-- A write answered `ignored` changes nothing. -/
theorem perform_ignored {s : State} {a : Access} {v : Word} (h : dataAnswer s a v = .ignored) :
    perform a v (latched a v s) = latched a v s := by
  have hp : platformIgnores (latched a v s) a = true := (platformIgnores_of_answer s a v).2 h
  simp [perform, hp]

/-- With the comparators off no access writes the latch. -/
theorem latched_off (a : Access) (v : Word) (s : State) (h : comparatorsOn s = false) : latched a v s = s := by
  simp [latched, latchAfter, unit1Selects, h]

/-- The state after every register of a list is loaded. -/
def putLoaded (put : Reg → Word → State → State) : List Reg → Word → State → State
  | [], _, s => s
  | r :: rs, a, s => putLoaded put rs (a + 4)
      (put r (readMem s .word a) (latched (dataAccess s false .word false false a) (readMem s .word a) s))

/-- The state after every word of a list is stored. -/
def putStored : List Word → Word → State → State
  | [], _, s => s
  | v :: vs, a, s => putStored vs (a + 4) (writeMem .word a v (latched (dataAccess s false .word true false a) v s))

theorem ofNat_four_succ (a : Word) (k : Nat) :
    a + BitVec.ofNat 32 (4 * (k + 1)) = a + 4 + BitVec.ofNat 32 (4 * k) := by
  rw [Nat.mul_add, BitVec.ofNat_add, BitVec.add_assoc, BitVec.add_comm (BitVec.ofNat 32 (4 * k))]
  rfl

@[simp] theorem loadsSeen_mem (s : State) (a : Word) (k : Nat) : (loadsSeen s a k).mem = s.mem := by
  induction k generalizing a s with
  | zero => rfl
  | succ k ih => exact ih _ _

/-- States that show the same before show the same after some loads. -/
theorem SameBus.loadsSeen {s t : State} (h : SameBus s t) (hm : t.mem = s.mem) (a : Word) (k : Nat) :
    SameBus (loadsSeen s a k) (loadsSeen t a k) := by
  induction k generalizing a s t with
  | zero => exact h
  | succ k ih =>
    unfold Machine.loadsSeen
    rw [h.access]
    exact ih (h.latched _ 0 0 (by simpa [dataAccess] using hm)) hm _

/-- States that show the same before show the same after some stores. -/
theorem SameBus.storesSeen {s t : State} (h : SameBus s t) (words : List Word) (a : Word) :
    SameBus (storesSeen s words a) (storesSeen t words a) := by
  induction words generalizing a s t with
  | nil => exact h
  | cons v vs ih =>
    unfold Machine.storesSeen
    rw [h.access]
    exact ih (h.latched _ v v (by simp [dataAccess])) _

@[simp] theorem mode_loadsSeen (s : State) (a : Word) (k : Nat) : mode (loadsSeen s a k) = mode s := by
  induction k generalizing a s with
  | zero => rfl
  | succ k ih => exact ih _ _

@[simp] theorem mode_storesSeen (s : State) (words : List Word) (a : Word) : mode (storesSeen s words a) = mode s := by
  induction words generalizing a s with
  | nil => rfl
  | cons v vs ih => exact ih _ _

/-- With the comparators off the debug logic sees no load and no store. -/
theorem loadsSeen_off (s : State) (a : Word) (k : Nat) (h : comparatorsOn s = false) : loadsSeen s a k = s := by
  induction k generalizing a with
  | zero => rfl
  | succ k ih => rw [loadsSeen, latched_off _ _ _ h, ih]

theorem storesSeen_off (s : State) (words : List Word) (a : Word) (h : comparatorsOn s = false) :
    storesSeen s words a = s := by
  induction words generalizing a with
  | nil => rfl
  | cons v vs ih => rw [storesSeen, latched_off _ _ _ h, ih]

/-- A read writes the latch with what memory holds, whatever value is given. -/
theorem latched_read (s : State) (a v v' : Word) :
    latched (dataAccess s false .word false false a) v s = latched (dataAccess s false .word false false a) v' s := rfl

theorem LoadsAnswered.tail {s t : State} {a v : Word} {n : Nat} (h : LoadsAnswered s a (n + 1))
    (hb : SameBus (latched (dataAccess s false .word false false a) v s) t) (hm : t.mem = s.mem) :
    LoadsAnswered t (a + 4) n := by
  intro k hk
  have := h (k + 1) (by omega)
  rw [ofNat_four_succ] at this
  have hs := hb.loadsSeen hm (a + 4) k
  rw [hb.access, hs.answer _ 0 0 (by simpa [dataAccess] using hm)]
  exact this

/-- A load multiple whose accesses are all answered makes every transfer. -/
theorem loadList_done (put : Reg → Word → State → State) (restore : State → State)
    (hput : ∀ r v s, SameBus s (put r v s) ∧ (put r v s).mem = s.mem) (regs : List Reg) (a : Word) (s : State)
    (h : LoadsAnswered s a regs.length) : loadList put restore regs a s = .done (putLoaded put regs a s) := by
  induction regs generalizing a s with
  | nil => rfl
  | cons r rs ih =>
    have h0 := h 0 (by simp)
    simp only [Nat.mul_zero, BitVec.add_zero, loadsSeen] at h0
    rw [dataAnswer_read s false .word false a 0 (readMem s .word a)] at h0
    unfold loadList putLoaded
    simp only [h0]
    exact ih _ _ (h.tail (hput _ _ _).1 (hput _ _ _).2)

theorem StoresAnswered.tail {s t : State} {a v : Word} {vs : List Word} (h : StoresAnswered s (v :: vs) a)
    (hb : SameBus (latched (dataAccess s false .word true false a) v s) t) : StoresAnswered t vs (a + 4) := by
  intro k hk
  have := h (k + 1) (by simpa using hk)
  rw [ofNat_four_succ] at this
  have hs := hb.storesSeen (vs.take k) (a + 4)
  rw [hb.access, hs.answer _ vs[k] vs[k] (by simp [dataAccess])]
  exact this

/-- A store multiple whose accesses are all answered makes every transfer. -/
theorem storeList_done (vs : List Word) (a : Word) (s : State) (h : StoresAnswered s vs a) :
    storeList vs a s = .done (putStored vs a s) := by
  induction vs generalizing a s with
  | nil => rfl
  | cons v vs ih =>
    have h0 := h 0 (by simp)
    simp only [Nat.mul_zero, BitVec.add_zero, List.getElem_cons_zero, List.take_zero, storesSeen] at h0
    unfold storeList putStored
    simp only [h0, perform_ok h0]
    exact ih _ _ (h.tail (sameBus_writeMem _ _ _ _))

/-- A load multiple that aborts at its `j`-th access: what came before it is loaded, then the base is restored. -/
theorem loadList_abort (put : Reg → Word → State → State) (restore : State → State)
    (hput : ∀ r v s, SameBus s (put r v s) ∧ (put r v s).mem = s.mem) (regs : List Reg) (a : Word) (s : State) (j : Nat)
    (hj : j < regs.length) (h : LoadsAnswered s a j)
    (hab : dataAnswer (loadsSeen s a j) (dataAccess s false .word false false (a + BitVec.ofNat 32 (4 * j))) 0 =
      .abort) :
    ∃ acc : Access, acc.fetch = false ∧ loadList put restore regs a s =
      .stopped (.next (dataAbort (restore (latchedAbort acc 0 (putLoaded put (regs.take j) a s))))) := by
  induction j generalizing a s regs with
  | zero =>
    obtain ⟨r, rs, rfl⟩ : ∃ r rs, regs = r :: rs := by cases regs with
      | nil => simp at hj
      | cons r rs => exact ⟨r, rs, rfl⟩
    simp only [Nat.mul_zero, BitVec.add_zero, loadsSeen] at hab
    rw [dataAnswer_read s false .word false a 0 (readMem s .word a)] at hab
    refine ⟨dataAccess s false .word false false a, rfl, ?_⟩
    unfold loadList
    simp only [hab]
    rfl
  | succ j ih =>
    obtain ⟨r, rs, rfl⟩ : ∃ r rs, regs = r :: rs := by cases regs with
      | nil => simp at hj
      | cons r rs => exact ⟨r, rs, rfl⟩
    have h0 := h 0 (by omega)
    simp only [Nat.mul_zero, BitVec.add_zero, loadsSeen] at h0
    rw [dataAnswer_read s false .word false a 0 (readMem s .word a)] at h0
    have hb := hput r (readMem s .word a) (latched (dataAccess s false .word false false a) (readMem s .word a) s)
    have hs := hb.1.loadsSeen hb.2 (a + 4) j
    obtain ⟨acc, hf, e⟩ := ih rs (a + 4)
      (put r (readMem s .word a) (latched (dataAccess s false .word false false a) (readMem s .word a) s))
      (by simpa using hj) (h.tail hb.1 hb.2)
      (by
        rw [ofNat_four_succ] at hab
        rw [hb.1.access, hs.answer _ 0 0 (by simpa [dataAccess] using hb.2)]
        exact hab)
    refine ⟨acc, hf, ?_⟩
    unfold loadList
    simp only [h0]
    exact e

/-- A store multiple that aborts at its `j`-th access: the words before it are stored. -/
theorem storeList_abort (vs : List Word) (a : Word) (s : State) (j : Nat) (hj : j < vs.length)
    (h : StoresAnswered s (vs.take j) a)
    (hab : dataAnswer (storesSeen s (vs.take j) a)
      (dataAccess s false .word true false (a + BitVec.ofNat 32 (4 * j))) vs[j] = .abort) :
    ∃ acc : Access, acc.fetch = false ∧ storeList vs a s =
      .stopped (.next (dataAbort (latchedAbort acc vs[j] (putStored (vs.take j) a s)))) := by
  induction j generalizing a s vs with
  | zero =>
    obtain ⟨v, vs, rfl⟩ : ∃ v ws, vs = v :: ws := by cases vs with
      | nil => simp at hj
      | cons v ws => exact ⟨v, ws, rfl⟩
    simp only [Nat.mul_zero, BitVec.add_zero, List.getElem_cons_zero, List.take_zero, storesSeen] at hab
    refine ⟨dataAccess s false .word true false a, rfl, ?_⟩
    unfold storeList
    simp only [hab]
    rfl
  | succ j ih =>
    obtain ⟨v, vs, rfl⟩ : ∃ v ws, vs = v :: ws := by cases vs with
      | nil => simp at hj
      | cons v ws => exact ⟨v, ws, rfl⟩
    have hj' : j < vs.length := by simpa using hj
    have h0 := h 0 (by simp)
    simp only [List.take_succ_cons, Nat.mul_zero, BitVec.add_zero, List.getElem_cons_zero, List.take_zero,
      storesSeen] at h0
    have hb := sameBus_writeMem .word a v (latched (dataAccess s false .word true false a) v s)
    have hs := hb.storesSeen (vs.take j) (a + 4)
    obtain ⟨acc, hf, e⟩ := ih vs (a + 4) (writeMem .word a v (latched (dataAccess s false .word true false a) v s)) hj'
      (by simpa using StoresAnswered.tail h hb)
      (by
        rw [ofNat_four_succ] at hab
        rw [hb.access, hs.answer _ vs[j] vs[j] (by simp [dataAccess])]
        exact hab)
    refine ⟨acc, hf, ?_⟩
    unfold storeList
    simp only [h0, perform_ok h0]
    exact e

/-- Loading registers changes nothing but registers and the CHAINOUT latch. -/
theorem putLoaded_eq (m : ModeBits) (regs : List Reg) (a : Word) (s : State) :
    { putLoaded (setRegAt m) regs a s with regs := s.regs, chainOut := s.chainOut } = s := by
  induction regs generalizing a s with
  | nil => rfl
  | cons r rs ih =>
    have h := ih (a + 4) (setRegAt m r (readMem s .word a)
      (latched (dataAccess s false .word false false a) (readMem s .word a) s))
    unfold putLoaded
    generalize putLoaded (setRegAt m) rs (a + 4) (setRegAt m r (readMem s .word a)
      (latched (dataAccess s false .word false false a) (readMem s .word a) s)) = t at h
    unfold setRegAt latched at h
    split at h
    · cases s
      cases t
      simp_all
    · cases s
      cases t
      simp_all

/-- Loading registers of the current mode is loading registers of that mode. -/
theorem putLoaded_setReg (regs : List Reg) (a : Word) (s : State) :
    putLoaded setReg regs a s = putLoaded (setRegAt (mode s)) regs a s := by
  induction regs generalizing a s with
  | nil => rfl
  | cons r rs ih =>
    unfold putLoaded
    rw [ih]
    simp only [mode_setReg, mode_latched]
    rfl

@[simp] theorem putLoaded_pc (m : ModeBits) (regs : List Reg) (a : Word) (s : State) :
    (putLoaded (setRegAt m) regs a s).pc = s.pc := by
  have h := congrArg State.pc (putLoaded_eq m regs a s)
  exact h
@[simp] theorem putLoaded_cpsr (m : ModeBits) (regs : List Reg) (a : Word) (s : State) :
    (putLoaded (setRegAt m) regs a s).cpsr = s.cpsr := by
  have h := congrArg State.cpsr (putLoaded_eq m regs a s)
  exact h
@[simp] theorem putLoaded_spsrFiq (m : ModeBits) (regs : List Reg) (a : Word) (s : State) :
    (putLoaded (setRegAt m) regs a s).spsrFiq = s.spsrFiq := by
  have h := congrArg State.spsrFiq (putLoaded_eq m regs a s)
  exact h
@[simp] theorem putLoaded_spsrIrq (m : ModeBits) (regs : List Reg) (a : Word) (s : State) :
    (putLoaded (setRegAt m) regs a s).spsrIrq = s.spsrIrq := by
  have h := congrArg State.spsrIrq (putLoaded_eq m regs a s)
  exact h
@[simp] theorem putLoaded_spsrSvc (m : ModeBits) (regs : List Reg) (a : Word) (s : State) :
    (putLoaded (setRegAt m) regs a s).spsrSvc = s.spsrSvc := by
  have h := congrArg State.spsrSvc (putLoaded_eq m regs a s)
  exact h
@[simp] theorem putLoaded_spsrAbt (m : ModeBits) (regs : List Reg) (a : Word) (s : State) :
    (putLoaded (setRegAt m) regs a s).spsrAbt = s.spsrAbt := by
  have h := congrArg State.spsrAbt (putLoaded_eq m regs a s)
  exact h
@[simp] theorem putLoaded_spsrUnd (m : ModeBits) (regs : List Reg) (a : Word) (s : State) :
    (putLoaded (setRegAt m) regs a s).spsrUnd = s.spsrUnd := by
  have h := congrArg State.spsrUnd (putLoaded_eq m regs a s)
  exact h
@[simp] theorem putLoaded_mem (m : ModeBits) (regs : List Reg) (a : Word) (s : State) :
    (putLoaded (setRegAt m) regs a s).mem = s.mem := by
  have h := congrArg State.mem (putLoaded_eq m regs a s)
  exact h
@[simp] theorem putLoaded_imem (m : ModeBits) (regs : List Reg) (a : Word) (s : State) :
    (putLoaded (setRegAt m) regs a s).imem = s.imem := by
  have h := congrArg State.imem (putLoaded_eq m regs a s)
  exact h
@[simp] theorem putLoaded_pins (m : ModeBits) (regs : List Reg) (a : Word) (s : State) :
    (putLoaded (setRegAt m) regs a s).pins = s.pins := by
  have h := congrArg State.pins (putLoaded_eq m regs a s)
  exact h
@[simp] theorem putLoaded_lines (m : ModeBits) (regs : List Reg) (a : Word) (s : State) :
    (putLoaded (setRegAt m) regs a s).lines = s.lines := by
  have h := congrArg State.lines (putLoaded_eq m regs a s)
  exact h
@[simp] theorem putLoaded_debug (m : ModeBits) (regs : List Reg) (a : Word) (s : State) :
    (putLoaded (setRegAt m) regs a s).dbg = s.dbg := by
  have h := congrArg State.dbg (putLoaded_eq m regs a s)
  exact h
@[simp] theorem putLoaded_cops (m : ModeBits) (regs : List Reg) (a : Word) (s : State) :
    (putLoaded (setRegAt m) regs a s).cops = s.cops := by
  have h := congrArg State.cops (putLoaded_eq m regs a s)
  exact h
@[simp] theorem putLoaded_accessRules (m : ModeBits) (regs : List Reg) (a : Word) (s : State) :
    (putLoaded (setRegAt m) regs a s).accessRules = s.accessRules := by
  have h := congrArg State.accessRules (putLoaded_eq m regs a s)
  exact h
@[simp] theorem putLoaded_inputs (m : ModeBits) (regs : List Reg) (a : Word) (s : State) :
    (putLoaded (setRegAt m) regs a s).inputs = s.inputs := by
  have h := congrArg State.inputs (putLoaded_eq m regs a s)
  exact h
@[simp] theorem putLoaded_stale (m : ModeBits) (regs : List Reg) (a : Word) (s : State) :
    (putLoaded (setRegAt m) regs a s).stale = s.stale := by
  have h := congrArg State.stale (putLoaded_eq m regs a s)
  exact h
@[simp] theorem putLoaded_pcWrapped (m : ModeBits) (regs : List Reg) (a : Word) (s : State) :
    (putLoaded (setRegAt m) regs a s).pcWrapped = s.pcWrapped := by
  have h := congrArg State.pcWrapped (putLoaded_eq m regs a s)
  exact h
@[simp] theorem putLoaded_userBankHazard (m : ModeBits) (regs : List Reg) (a : Word) (s : State) :
    (putLoaded (setRegAt m) regs a s).userBankHazard = s.userBankHazard := by
  have h := congrArg State.userBankHazard (putLoaded_eq m regs a s)
  exact h
@[simp] theorem putLoaded_vectorEntered (m : ModeBits) (regs : List Reg) (a : Word) (s : State) :
    (putLoaded (setRegAt m) regs a s).vectorEntered = s.vectorEntered := by
  have h := congrArg State.vectorEntered (putLoaded_eq m regs a s)
  exact h
@[simp] theorem putLoaded_tick (m : ModeBits) (regs : List Reg) (a : Word) (s : State) :
    (putLoaded (setRegAt m) regs a s).tick = s.tick := by
  have h := congrArg State.tick (putLoaded_eq m regs a s)
  exact h
@[simp] theorem mode_putLoaded (m : ModeBits) (regs : List Reg) (a : Word) (s : State) :
    mode (putLoaded (setRegAt m) regs a s) = mode s := by simp [mode]

theorem latchKept_putLoaded (m : ModeBits) (regs : List Reg) (a : Word) (s : State) :
    LatchKept s (putLoaded (setRegAt m) regs a s) := by
  induction regs generalizing a s with
  | nil => exact .of_eq rfl
  | cons r rs ih =>
    exact (latchKept_latched _ rfl _ s).trans
      ((LatchKept.of_eq (setRegAt_chainOut _ _ _ _)).trans (ih _ _) (by simp) (by simp)) (by simp) (by simp)

/-- Registers that are not loaded keep their values. -/
theorem regsKept_putLoaded (m : ModeBits) (regs : List Reg) (a : Word) (s : State) (m' : ModeBits) (n : Reg)
    (h : ∀ r ∈ regs, r ≠ 15 → bankIndex m' n ≠ bankIndex m r) :
    regAt (putLoaded (setRegAt m) regs a s) m' n = regAt s m' n := by
  induction regs generalizing a s with
  | nil => rfl
  | cons r rs ih =>
    unfold putLoaded
    rw [ih _ _ (fun q hq => h q (by simp [hq]))]
    by_cases hr : r = 15
    · simp [setRegAt, hr]
      rfl
    · exact regAt_setRegAt_other _ _ _ _ _ _ (h r (by simp) hr)

/-- Each register loaded holds its word. -/
theorem regAt_putLoaded (m : ModeBits) (regs : List Reg) (a : Word) (s : State) (hd : regs.Nodup) (k : Nat)
    (hk : k < regs.length) (h15 : regs[k] ≠ 15) :
    regAt (putLoaded (setRegAt m) regs a s) m regs[k] = readMem s .word (a + BitVec.ofNat 32 (4 * k)) := by
  induction regs generalizing a s k with
  | nil => simp at hk
  | cons r rs ih =>
    have hd' := List.nodup_cons.mp hd
    unfold putLoaded
    cases k with
    | zero =>
      simp only [List.getElem_cons_zero, Nat.mul_zero, BitVec.add_zero] at h15 ⊢
      rw [regsKept_putLoaded _ _ _ _ _ _ (fun q hq hq15 e => hd'.1 (by
        rw [bankIndex_inj _ _ _ h15 hq15 e]
        exact hq))]
      exact regAt_setRegAt_same _ _ _ _ h15
    | succ k =>
      simp only [List.getElem_cons_succ] at h15 ⊢
      rw [ih _ _ hd'.2 k (by simpa using hk) h15, ofNat_four_succ]
      exact (sameBus_setRegAt _ _ _ (latched _ _ s)).readMem (by simp) _ _

/-- The word at step `k` of a transfer is apart from the others'. -/
theorem align_word_apart (a : Word) (i j : Nat) (hij : i ≠ j) (hi : i < 2 ^ 30) (hj : j < 2 ^ 30) :
    (Size.align .word (a + BitVec.ofNat 32 (4 * i))).toNat + 4 ≤ (Size.align .word (a + BitVec.ofNat 32 (4 * j))).toNat ∨
    (Size.align .word (a + BitVec.ofNat 32 (4 * j))).toNat + 4 ≤
      (Size.align .word (a + BitVec.ofNat 32 (4 * i))).toNat := by
  have key : ∀ x : Word, (Size.align .word x).toNat = x.toNat / 4 * 4 := by
    intro x
    have hx := x.isLt
    have : Size.align .word x = x >>> 2 <<< 2 := by
      apply BitVec.eq_of_getLsbD_eq
      intro k hk
      have hc : ∀ k < 32, (0xFFFFFFFC : Word).getLsbD k = decide (2 ≤ k) := by decide
      simp only [Size.align, BitVec.getLsbD_and, hc k hk, BitVec.getLsbD_shiftLeft, BitVec.getLsbD_ushiftRight]
      by_cases h2 : 2 ≤ k
      · simp [h2, hk, show ¬ k < 2 by omega, show 2 + (k - 2) = k by omega]
      · simp [h2, show k < 2 by omega]
    rw [this]
    simp [BitVec.toNat_shiftLeft, BitVec.toNat_ushiftRight, Nat.shiftLeft_eq, Nat.shiftRight_eq_div_pow]
    omega
  have ha := a.isLt
  rw [key, key]
  simp only [BitVec.toNat_add, BitVec.toNat_ofNat]
  omega

/-- Storing words changes memory, the stale addresses and the CHAINOUT latch only. -/
theorem putStored_eq (vs : List Word) (a : Word) (s : State) :
    { putStored vs a s with mem := s.mem, stale := s.stale, chainOut := s.chainOut } = s := by
  induction vs generalizing a s with
  | nil => rfl
  | cons v vs ih =>
    have h := ih (a + 4) (writeMem .word a v (latched (dataAccess s false .word true false a) v s))
    unfold putStored
    generalize putStored vs (a + 4) (writeMem .word a v (latched (dataAccess s false .word true false a) v s)) = t at h
    unfold writeMem latched at h
    cases s
    cases t
    simp_all

@[simp] theorem putStored_regs (vs : List Word) (a : Word) (s : State) : (putStored vs a s).regs = s.regs := by
  have h := congrArg State.regs (putStored_eq vs a s)
  exact h
@[simp] theorem putStored_pc (vs : List Word) (a : Word) (s : State) : (putStored vs a s).pc = s.pc := by
  have h := congrArg State.pc (putStored_eq vs a s)
  exact h
@[simp] theorem putStored_cpsr (vs : List Word) (a : Word) (s : State) : (putStored vs a s).cpsr = s.cpsr := by
  have h := congrArg State.cpsr (putStored_eq vs a s)
  exact h
@[simp] theorem putStored_spsrFiq (vs : List Word) (a : Word) (s : State) : (putStored vs a s).spsrFiq = s.spsrFiq := by
  have h := congrArg State.spsrFiq (putStored_eq vs a s)
  exact h
@[simp] theorem putStored_spsrIrq (vs : List Word) (a : Word) (s : State) : (putStored vs a s).spsrIrq = s.spsrIrq := by
  have h := congrArg State.spsrIrq (putStored_eq vs a s)
  exact h
@[simp] theorem putStored_spsrSvc (vs : List Word) (a : Word) (s : State) : (putStored vs a s).spsrSvc = s.spsrSvc := by
  have h := congrArg State.spsrSvc (putStored_eq vs a s)
  exact h
@[simp] theorem putStored_spsrAbt (vs : List Word) (a : Word) (s : State) : (putStored vs a s).spsrAbt = s.spsrAbt := by
  have h := congrArg State.spsrAbt (putStored_eq vs a s)
  exact h
@[simp] theorem putStored_spsrUnd (vs : List Word) (a : Word) (s : State) : (putStored vs a s).spsrUnd = s.spsrUnd := by
  have h := congrArg State.spsrUnd (putStored_eq vs a s)
  exact h
@[simp] theorem putStored_imem (vs : List Word) (a : Word) (s : State) : (putStored vs a s).imem = s.imem := by
  have h := congrArg State.imem (putStored_eq vs a s)
  exact h
@[simp] theorem putStored_pins (vs : List Word) (a : Word) (s : State) : (putStored vs a s).pins = s.pins := by
  have h := congrArg State.pins (putStored_eq vs a s)
  exact h
@[simp] theorem putStored_lines (vs : List Word) (a : Word) (s : State) : (putStored vs a s).lines = s.lines := by
  have h := congrArg State.lines (putStored_eq vs a s)
  exact h
@[simp] theorem putStored_debug (vs : List Word) (a : Word) (s : State) : (putStored vs a s).dbg = s.dbg := by
  have h := congrArg State.dbg (putStored_eq vs a s)
  exact h
@[simp] theorem putStored_cops (vs : List Word) (a : Word) (s : State) : (putStored vs a s).cops = s.cops := by
  have h := congrArg State.cops (putStored_eq vs a s)
  exact h
@[simp] theorem putStored_accessRules (vs : List Word) (a : Word) (s : State) : (putStored vs a s).accessRules = s.accessRules := by
  have h := congrArg State.accessRules (putStored_eq vs a s)
  exact h
@[simp] theorem putStored_inputs (vs : List Word) (a : Word) (s : State) : (putStored vs a s).inputs = s.inputs := by
  have h := congrArg State.inputs (putStored_eq vs a s)
  exact h
@[simp] theorem putStored_pcWrapped (vs : List Word) (a : Word) (s : State) : (putStored vs a s).pcWrapped = s.pcWrapped := by
  have h := congrArg State.pcWrapped (putStored_eq vs a s)
  exact h
@[simp] theorem putStored_userBankHazard (vs : List Word) (a : Word) (s : State) : (putStored vs a s).userBankHazard = s.userBankHazard := by
  have h := congrArg State.userBankHazard (putStored_eq vs a s)
  exact h
@[simp] theorem putStored_vectorEntered (vs : List Word) (a : Word) (s : State) : (putStored vs a s).vectorEntered = s.vectorEntered := by
  have h := congrArg State.vectorEntered (putStored_eq vs a s)
  exact h
@[simp] theorem putStored_tick (vs : List Word) (a : Word) (s : State) : (putStored vs a s).tick = s.tick := by
  have h := congrArg State.tick (putStored_eq vs a s)
  exact h
@[simp] theorem mode_putStored (vs : List Word) (a : Word) (s : State) : mode (putStored vs a s) = mode s := by
  simp [mode]
@[simp] theorem regAt_putStored (vs : List Word) (a : Word) (s : State) (m : ModeBits) (n : Reg) :
    regAt (putStored vs a s) m n = regAt s m n := regAt_congr (by simp) m n

theorem latchKept_putStored (vs : List Word) (a : Word) (s : State) : LatchKept s (putStored vs a s) := by
  induction vs generalizing a s with
  | nil => exact .of_eq rfl
  | cons v vs ih =>
    exact (latchKept_latched _ rfl _ s).trans
      ((LatchKept.of_eq (writeMem_chainOut _ _ _ _)).trans (ih _ _) (by simp) (by simp)) (by simp) (by simp)

theorem putStored_wf (vs : List Word) (a : Word) (s : State) (h : Memory.wf s.mem = true) :
    Memory.wf (putStored vs a s).mem = true := by
  induction vs generalizing a s with
  | nil => exact h
  | cons v vs ih => exact ih _ _ (writeMem_wf _ _ _ (latched _ _ s) h)

/-- Bytes outside the words stored keep their values. -/
theorem putStored_other (vs : List Word) (a : Word) (s : State) (x : Nat)
    (h : ∀ k, k < vs.length → x < (Size.align .word (a + BitVec.ofNat 32 (4 * k))).toNat ∨
      (Size.align .word (a + BitVec.ofNat 32 (4 * k))).toNat + 4 ≤ x) :
    memGet (putStored vs a s).mem x = memGet s.mem x := by
  induction vs generalizing a s with
  | nil => rfl
  | cons v vs ih =>
    unfold putStored
    rw [ih _ _ (fun k hk => by
      have := h (k + 1) (by simpa using hk)
      rwa [ofNat_four_succ] at this)]
    have h0 := h 0 (by simp)
    simp only [Nat.mul_zero, BitVec.add_zero] at h0
    exact writeMem_other _ _ _ (latched _ _ s) _ h0

theorem memGetBytes_congr (m m' : List Host.Cell) (x n : Nat) (h : ∀ y, x ≤ y → y < x + n → memGet m y = memGet m' y) :
    memGetBytes m x n = memGetBytes m' x n := by
  induction n generalizing x with
  | zero => rfl
  | succ n ih =>
    rw [memGetBytes, memGetBytes, h x (by omega) (by omega), ih (x + 1) (fun y h1 h2 => h y (by omega) (by omega))]

/-- Each word stored lies in memory. -/
theorem putStored_same (vs : List Word) (a : Word) (s : State) (hw : Memory.wf s.mem = true) (hn : vs.length ≤ 2 ^ 30)
    (k : Nat) (hk : k < vs.length) :
    memGetBytes (putStored vs a s).mem (Size.align .word (a + BitVec.ofNat 32 (4 * k))).toNat 4 =
      laneBytes s.pins.bigEndian .word vs[k] := by
  induction vs generalizing a s k with
  | nil => simp at hk
  | cons v vs ih =>
    simp only [List.length_cons] at hn hk
    unfold putStored
    cases k with
    | zero =>
      simp only [Nat.mul_zero, BitVec.add_zero, List.getElem_cons_zero]
      have hsame : memGetBytes (writeMem .word a v (latched (dataAccess s false .word true false a) v s)).mem
          (Size.align .word a).toNat 4 = laneBytes s.pins.bigEndian .word v := writeMem_same .word a v (latched _ _ s) hw
      rw [← hsame]
      apply memGetBytes_congr
      intro y h1 h2
      apply putStored_other
      intro k hk'
      have := align_word_apart a 0 (k + 1) (by omega) (by omega) (by omega)
      rw [ofNat_four_succ] at this
      simp only [Nat.mul_zero, BitVec.add_zero] at this
      omega
    | succ k =>
      rw [ofNat_four_succ]
      exact ih (a + 4) (writeMem .word a v (latched (dataAccess s false .word true false a) v s))
        (writeMem_wf _ _ _ (latched _ _ s) hw) (by omega) k (by omega)

end Sys2Proof.Machine
end

