-- ==== Sys2Proof/Laws/Accesses.lean ====
section
/-! SUPPORT. The ends of single loads and stores, answered or aborted. -/

set_option Elab.async false

namespace Sys2Proof.Machine

/-- What `loadStoreAllowed` rules out. -/
theorem loadStoreAllowed_iff (idx : Index) (rn rd : Reg) (rm : Option Reg) (pcOk : Bool) :
    loadStoreAllowed idx rn rd rm pcOk = true ↔
      idx ≠ .postWriteback ∧ rm ≠ some 15 ∧ (rd = 15 → pcOk = true) ∧
        (Index.writesBase idx = true → rn ≠ 15 ∧ rm ≠ some rn ∧ rd ≠ rn) := by
  have h : ∀ p : Prop, (¬ p ∨ pcOk = true) ↔ (p → pcOk = true) := fun p => by tauto
  cases hw : Index.writesBase idx <;> simp [loadStoreAllowed, hw, and_assoc, h]

/-- The base write-back keeps everything but the base. -/
theorem singleBase_cases (s : State) (idx : Index) (u : Bool) (rn : Reg) (o : Word) (t : State) :
    (Index.writesBase idx = false ∧ singleBase s idx u rn o t = t ∧ Index.newBase idx (armReg s rn) o u = none) ∨
    (Index.writesBase idx = true ∧ ∃ b, singleBase s idx u rn o t = setReg rn b t ∧
      Index.newBase idx (armReg s rn) o u = some b) := by
  cases hw : Index.writesBase idx
  · exact .inl ⟨rfl, by simp [singleBase, writeBack, hw], by simp [Index.newBase, hw]⟩
  · exact .inr ⟨rfl, _, by simp only [singleBase, writeBack, hw, if_true]; rfl, by simp [Index.newBase, hw, offsetAddr]⟩

/-- The end of a single load. -/
theorem loads_single (s : State) (len : Word) (rd : Reg) (v : Word) (idx : Index) (u : Bool) (rn : Reg) (o : Word)
    (hd : rd ≠ 15) (hb : Index.writesBase idx = true → rn ≠ 15 ∧ rd ≠ rn) :
    Loads s len rd v rn (Index.newBase idx (armReg s rn) o u) (advance len (setReg rd v (singleBase s idx u rn o s))) := by
  rcases singleBase_cases s idx u rn o s with ⟨_, e1, e2⟩ | ⟨hw, b, e1, e2⟩
  · rw [e1, e2]
    have h := writesReg_setReg s len rd v hd
    exact ⟨h.result, by simp, by simpa using h.others, h.cpsr, h.pc, h.specials, h.memory⟩
  · rw [e1, e2]
    obtain ⟨h15, hne⟩ := hb hw
    refine ⟨?_, ?_, ?_, by simp, by simp, ?_, memKept_of (by simp) (by simp)⟩
    · rw [regAt_advance, ← mode_setReg rn b s, regAt_setReg_same _ _ _ hd]
    · rintro b' ⟨⟩
      rw [regAt_advance, regAt_setReg_other, regAt_setReg_same _ _ _ h15]
      rw [mode_setReg]
      exact fun e => hne (bankIndex_inj _ _ _ h15 hd e).symm
    · intro m n hn hp
      have h1 := hp (mode s, rd) (by simp)
      have h2 := hp (mode s, rn) (by simp)
      rw [regAt_advance, regAt_setReg_other _ _ _ _ _ (by simpa using h1), regAt_setReg_other _ _ _ _ _ h2]
    · refine specialsKept_of ?_ ?_ ?_ ?_ ?_ ?_ ?_ ?_ ?_ ?_ ?_ ?_ ?_ ?_ ?_ <;> simp

/-- The end of a load to the PC, through the state `t` with the base written back. -/
theorem loadsPc_single (s : State) (target f : Word) (idx : Index) (u : Bool) (rn : Reg) (o : Word)
    (hb : Index.writesBase idx = true → rn ≠ 15) :
    LoadsPc s target f rn (Index.newBase idx (armReg s rn) o u)
      (branchTo target (setCpsr f (singleBase s idx u rn o s))) := by
  rcases singleBase_cases s idx u rn o s with ⟨_, e1, e2⟩ | ⟨hw, b, e1, e2⟩
  · rw [e1, e2]
    have h := branches_setCpsr s target f
    exact ⟨h.pc, h.cpsr, by simp, by simpa using h.others, h.specials, h.memory, h.refilled⟩
  · rw [e1, e2]
    refine ⟨by simp, by simp, ?_, ?_, ?_, memKept_of (by simp) (by simp), by simp⟩
    · rintro b' ⟨⟩
      simpa using regAt_setReg_same rn b s (hb hw)
    · intro m n hn hp
      simpa using regsKept_setReg rn b s m n hn (by simpa using hp)
    · refine specialsKept_of ?_ ?_ ?_ ?_ ?_ ?_ ?_ ?_ ?_ ?_ ?_ ?_ ?_ ?_ ?_ <;> simp

/-- The end of a single store. -/
theorem stores_single (s : State) (len : Word) (z : Size) (a v : Word) (idx : Index) (u : Bool) (rn : Reg) (o : Word)
    (hw : Memory.wf s.mem = true) (hb : Index.writesBase idx = true → rn ≠ 15) :
    Stores s len z a v rn (Index.newBase idx (armReg s rn) o u)
      (advance len (singleBase s idx u rn o (writeMem z a v s))) := by
  rcases singleBase_cases s idx u rn o (writeMem z a v s) with ⟨_, e1, e2⟩ | ⟨hwb, b, e1, e2⟩
  · rw [e1, e2]
    refine ⟨?_, ⟨?_, by simp⟩, by simp, regsKept_of (by simp) _, by simp, by simp, ?_⟩
    · simpa using writeMem_same z a v s hw
    · intro x hx
      simpa using writeMem_other z a v s x hx
    · refine specialsKept_of ?_ ?_ ?_ ?_ ?_ ?_ ?_ ?_ ?_ ?_ ?_ ?_ ?_ ?_ ?_ <;> simp
  · rw [e1, e2]
    refine ⟨?_, ⟨?_, by simp⟩, ?_, ?_, by simp, by simp, ?_⟩
    · simpa using writeMem_same z a v s hw
    · intro x hx
      simpa using writeMem_other z a v s x hx
    · rintro b' ⟨⟩
      simpa using regAt_setReg_same rn b (writeMem z a v s) (hb hwb)
    · intro m n hn hp
      simpa using regsKept_setReg rn b (writeMem z a v s) m n hn (by simpa using hp)
    · refine specialsKept_of ?_ ?_ ?_ ?_ ?_ ?_ ?_ ?_ ?_ ?_ ?_ ?_ ?_ ?_ ?_ <;> simp

/-- What holds after a state that differs in the CHAINOUT latch by one access holds after the state itself. -/
theorem SpecialsKept.of_access {s u t : State} (h : SpecialsKept u t) (hu : { u with chainOut := s.chainOut } = s)
    (hk : LatchKept s u) : SpecialsKept s t := by
  have e : u = { s with chainOut := u.chainOut } := by rw [← hu]
  rw [e] at h
  exact ⟨⟨h.spsrs.fiq, h.spsrs.irq, h.spsrs.svc, h.spsrs.abt, h.spsrs.und⟩,
    ⟨h.outside.pins, h.outside.lines, h.outside.accessRules, h.outside.inputs, h.outside.tick⟩, h.dbg,
    LatchKept.trans (t := { s with chainOut := u.chainOut }) hk h.latch rfl rfl, h.cops, h.hazard, h.entered⟩

theorem SpecialsKept.of_latched {s t : State} {a : Access} {v : Word} (ha : a.fetch = false)
    (h : SpecialsKept (latched a v s) t) : SpecialsKept s t := h.of_access rfl (latchKept_latched a ha v s)

/-- A load after its access. -/
theorem Loads.of_latched {s t : State} {a : Access} {x : Word} (ha : a.fetch = false) {len : Word} {rd : Reg} {v : Word}
    {rn : Reg} {base : Option Word} (h : Loads (latched a x s) len rd v rn base t) : Loads s len rd v rn base t :=
  ⟨h.result, h.written, h.others, h.cpsr, h.pc, h.specials.of_latched ha, h.memory⟩

theorem LoadsPc.of_latched {s t : State} {a : Access} {x : Word} (ha : a.fetch = false) {target f : Word} {rn : Reg}
    {base : Option Word} (h : LoadsPc (latched a x s) target f rn base t) : LoadsPc s target f rn base t :=
  ⟨h.pc, h.cpsr, h.written, h.others, h.specials.of_latched ha, h.memory, h.refilled⟩

/-- A store after its access. -/
theorem Stores.of_latched {s t : State} {a : Access} {x : Word} (ha : a.fetch = false) {len : Word} {z : Size}
    {addr v : Word} {rn : Reg} {base : Option Word} (h : Stores (latched a x s) len z addr v rn base t) :
    Stores s len z addr v rn base t :=
  ⟨h.stored, h.memory, h.written, h.others, h.cpsr, h.pc, h.specials.of_latched ha⟩

/-- A byte read. -/
theorem readMem_byte (s : State) (a : Word) : readMem s .byte a = zext (memGet s.mem a.toNat) := by
  cases hb : s.pins.bigEndian <;>
    simp [readMem, Size.align, Size.bytes, memGetBytes, assemble, hb, zext, BitVec.ofNat_toNat]

/-- Nothing but memory and the stale addresses changes in a store that writes no base. -/
theorem stores_plain (s : State) (len : Word) (z : Size) (a v : Word) (rn : Reg) (hw : Memory.wf s.mem = true) :
    Stores s len z a v rn none (advance len (writeMem z a v s)) := by
  have h := stores_single s len z a v .offset true rn 0 hw (by simp [Index.writesBase])
  exact h

/-- What holds of an entry taken in a state that differs in the CHAINOUT latch by one access holds of the state itself. -/
theorem Enters.of_access {s u t : State} {e : Exception} {link : Word} (h : Enters u e link t)
    (hu : { u with chainOut := s.chainOut } = s) (hk : LatchKept s u) : Enters s e link t := by
  have e' : u = { s with chainOut := u.chainOut } := by rw [← hu]
  rw [e'] at h
  exact ⟨h.linked, h.saved, h.cpsr, h.pc, h.regs, h.spsrs, h.memory, ⟨h.outside.pins, h.outside.lines,
    h.outside.accessRules, h.outside.inputs, h.outside.tick⟩, h.dbg,
    LatchKept.trans (t := { s with chainOut := u.chainOut }) hk h.latch rfl rfl, h.cops⟩

/-- A Data Abort of one access changes nothing but what the entry does. -/
theorem enters_dataAbort (a : Access) (ha : a.fetch = false) (v : Word) (s : State) :
    Enters s .dataAbort (s.pc + 8) (dataAbort (latchedAbort a v s)) := by
  have h : Enters (latchedAbort a v s) .dataAbort ((latchedAbort a v s).pc + 8) (dataAbort (latchedAbort a v s)) :=
    enters_takeException .dataAbort _ _ (by decide) (by decide)
  rw [latchedAbort_pc] at h
  refine h.of_access ?_ (latchKept_latchedAbort a ha v s)
  unfold latchedAbort
  split <;> rfl

/-- A Data Abort taken in `u`, where an instruction of `s` stands that has written `written`. -/
theorem abortsData_dataAbort {s u : State} {written : List (ModeBits × Reg)} (hr : RegsKept s u written)
    (hc : u.cpsr = s.cpsr) (hp : u.pc = s.pc) (hs : ∀ m, spsrAt u m = spsrAt s m) (ho : OutsideKept s u)
    (hl : LatchKept s u) : AbortsData s written u.dbg u.cops (dataAbort u) := by
  have h := enters_takeException .dataAbort (u.pc + 8) u (by decide) (by decide)
  have hv : vectorBase u = vectorBase s := by simp [vectorBase, ho.pins]
  refine ⟨?_, ?_, ?_, ?_, fun m n hn hx => ?_, fun m hm => (h.spsrs m hm).trans (hs m), ?_, h.dbg,
    fun hk => ?_, h.cops⟩
  · rw [← hp]
    exact h.linked
  · have := h.saved
    rw [hc] at this
    exact Option.some.inj this
  · rw [← hc]
    exact h.cpsr
  · rw [← hv]
    exact h.pc
  · exact (h.regs m n hn fun p hp' => hx p (by simp_all [Exception.entryMode])).trans
      (hr m n hn fun p hp' => hx p (by simp [hp']))
  · exact ⟨h.outside.pins.trans ho.pins, h.outside.lines.trans ho.lines, h.outside.accessRules.trans ho.accessRules,
      h.outside.inputs.trans ho.inputs, h.outside.tick.trans ho.tick⟩
  · simpa [dataAbort] using hl hk

/-- Setting DbgAbt after the entry. -/
theorem AbortsData.setDbgAbt {s t : State} {written : List (ModeBits × Reg)} {d : DebugUnit} {cops : List CopPort}
    (h : AbortsData s written d cops t) : AbortsData s written { d with dbgAbt := true } cops (setDbgAbt true t) :=
  ⟨h.linked, h.saved, h.cpsr, h.pc, h.regs, h.spsrs, ⟨h.outside.pins, h.outside.lines, h.outside.accessRules,
    h.outside.inputs, h.outside.tick⟩, by simp [Machine.setDbgAbt, h.dbg], h.latch, h.cops⟩

/-- As `Enters.of_access`, for a Data Abort that may have written registers. -/
theorem AbortsData.of_access {s u t : State} {written : List (ModeBits × Reg)} {d : DebugUnit} {cops : List CopPort}
    (h : AbortsData u written d cops t) (hu : { u with chainOut := s.chainOut } = s) (hk : LatchKept s u) :
    AbortsData s written d cops t := by
  have e' : u = { s with chainOut := u.chainOut } := by rw [← hu]
  rw [e'] at h
  exact ⟨h.linked, h.saved, h.cpsr, h.pc, h.regs, h.spsrs, ⟨h.outside.pins, h.outside.lines,
    h.outside.accessRules, h.outside.inputs, h.outside.tick⟩, h.dbg,
    LatchKept.trans (t := { s with chainOut := u.chainOut }) hk h.latch rfl rfl, h.cops⟩

/-- A monitor-mode watchpoint at one access: the Data Abort is taken and DbgAbt set; `d`, what completes the access, may
have been done. -/
theorem abortsData_watched {s : State} {a : Access} (ha : a.fetch = false) (v : Word) (d : State → State)
    {written : List (ModeBits × Reg)} (hr : RegsKept (latched a v s) (d (latched a v s)) written)
    (he : ∃ r m p, d (latched a v s) = { latched a v s with regs := r, mem := m, stale := p })
    (hm : (a.write = false → (d (latched a v s)).mem = s.mem) ∧
      ∀ x, x < (a.size.align a.addr).toNat ∨ (a.size.align a.addr).toNat + a.size.bytes ≤ x →
        memGet (d (latched a v s)).mem x = memGet s.mem x) :
    let t := setDbgAbt true (dataAbort (if Config.watchCompletes s.tick then d (latched a v s) else latched a v s))
    AbortsData s written (setDbgAbt true s).dbg s.cops t ∧ (a.write = false → MemKept s t) ∧
      MemKeptOutside s t a.size a.addr := by
  intro t
  obtain ⟨r, m, p, e⟩ := he
  rw [e] at hr hm
  have hA : ∀ u, u = { latched a v s with regs := r, mem := m, stale := p } ∨ u = latched a v s →
      AbortsData s written (setDbgAbt true s).dbg s.cops (setDbgAbt true (dataAbort u)) ∧
      (a.write = false → MemKept s (setDbgAbt true (dataAbort u))) ∧
      MemKeptOutside s (setDbgAbt true (dataAbort u)) a.size a.addr := by
    rintro u (rfl | rfl)
    · refine ⟨(abortsData_dataAbort (s := s) (u := { latched a v s with regs := r, mem := m, stale := p }) ?_ rfl rfl
        (fun _ => rfl) ⟨rfl, rfl, rfl, rfl, rfl⟩ (latchKept_latched a ha v s)).setDbgAbt,
        fun hw => memKept_of (by simpa [dataAbort] using hm.1 hw) (by simp [dataAbort]), fun x hx => ?_,
        fun x => by simp [dataAbort]⟩
      · exact fun m n hn hx => hr m n hn hx
      · simpa [dataAbort] using hm.2 x hx
    · exact ⟨(abortsData_dataAbort (s := s) (u := latched a v s) (fun _ _ _ _ => rfl) rfl rfl
        (fun _ => rfl) ⟨rfl, rfl, rfl, rfl, rfl⟩ (latchKept_latched a ha v s)).setDbgAbt,
        fun _ => memKept_of (by simp [dataAbort]) (by simp [dataAbort]), fun x _ => by simp [dataAbort],
        fun x => by simp [dataAbort]⟩
  have : t = setDbgAbt true (dataAbort (if Config.watchCompletes s.tick then
      { latched a v s with regs := r, mem := m, stale := p } else latched a v s)) := by rw [← e]
  rw [this]
  split
  · exact hA _ (.inl rfl)
  · exact hA _ (.inr rfl)

/-- How a guarded load ends when it is not answered. -/
theorem guarded_load_stopped {s : State} {a : Access} (ha : a.fetch = false) (rd : Reg) (v : Word)
    (k : State → Result) :
    (dataAnswer s a 0 = .abort → Completes (guarded s a 0 (setReg rd v) k) (Enters s .dataAbort (s.pc + 8))) ∧
    (dataAnswer s a 0 = .debugAbort → Completes (guarded s a 0 (setReg rd v) k) fun t =>
      AbortsData s [(mode s, rd)] (setDbgAbt true s).dbg s.cops t ∧ (a.write = false → MemKept s t) ∧
        MemKeptOutside s t a.size a.addr) := by
  refine ⟨fun h => ⟨_, guarded_abort h _ _, enters_dataAbort a ha 0 s⟩, fun h => ⟨_, guarded_debugAbort h _ _, ?_⟩⟩
  refine abortsData_watched ha 0 (setReg rd v) ?_ ?_ ⟨fun _ => by simp, fun x _ => by simp⟩
  · exact regsKept_setReg rd v (latched a 0 s)
  · unfold setReg setRegAt
    split
    · exact ⟨_, _, _, rfl⟩
    · exact ⟨_, _, _, rfl⟩

/-- How a guarded access that writes nothing but the latch ends when it is not answered. -/
theorem guarded_read_stopped {s : State} {a : Access} (ha : a.fetch = false) (k : State → Result) :
    (dataAnswer s a 0 = .abort → Completes (guarded s a 0 id k) (Enters s .dataAbort (s.pc + 8))) ∧
    (dataAnswer s a 0 = .debugAbort → Completes (guarded s a 0 id k) fun t =>
      AbortsData s [] (setDbgAbt true s).dbg s.cops t ∧ (a.write = false → MemKept s t) ∧
        MemKeptOutside s t a.size a.addr) := by
  refine ⟨fun h => ⟨_, guarded_abort h _ _, enters_dataAbort a ha 0 s⟩, fun h => ⟨_, guarded_debugAbort h _ _, ?_⟩⟩
  exact abortsData_watched ha 0 id (fun _ _ _ _ => rfl) ⟨_, _, _, rfl⟩ ⟨fun _ => rfl, fun x _ => rfl⟩

/-- How a guarded store ends when it is not answered. -/
theorem guarded_store_stopped {s : State} {a : Access} (ha : a.fetch = false) (hw : a.write = true) (v : Word)
    (k : State → Result) :
    (dataAnswer s a v = .abort → Completes (guarded s a v (perform a v) k) (Enters s .dataAbort (s.pc + 8))) ∧
    (dataAnswer s a v = .debugAbort → Completes (guarded s a v (perform a v) k) fun t =>
      AbortsData s [] (setDbgAbt true s).dbg s.cops t ∧ (a.write = false → MemKept s t) ∧
        MemKeptOutside s t a.size a.addr) := by
  refine ⟨fun h => ⟨_, guarded_abort h _ _, enters_dataAbort a ha v s⟩, fun h => ⟨_, guarded_debugAbort h _ _, ?_⟩⟩
  refine abortsData_watched ha v (perform a v) (regsKept_of (by simp) _) ?_ ⟨fun h => by simp [hw] at h, fun x hx => ?_⟩
  · unfold perform
    split
    · exact ⟨_, _, _, rfl⟩
    · exact ⟨_, _, _, rfl⟩
  · unfold perform
    split
    · rfl
    · exact writeMem_other a.size a.addr v (latched a v s) x hx

end Sys2Proof.Machine
end

