-- ==== Sys2Proof/Laws/Bits.lean ====
section
/-! SUPPORT. Reading back the fields of a word built with `push`. -/

set_option Elab.async false

namespace Sys2Proof

theorem getLsbD_push {N n : Nat} (w : BitVec N) (x : BitVec n) (i : Nat) (h : n ≤ N) :
    (push w x).getLsbD i = if i < n then x.getLsbD i else (decide (i < N) && w.getLsbD (i - n)) := by
  simp only [push, BitVec.getLsbD_or, BitVec.getLsbD_shiftLeft, BitVec.getLsbD_setWidth]
  by_cases hi : i < n
  · have : i < N := by omega
    simp [hi, this]
  · have : x.getLsbD i = false := BitVec.getLsbD_of_ge _ _ (by omega)
    simp [hi, this]

theorem flag_push_lo {N n : Nat} (w : BitVec N) (x : BitVec n) (i : Nat) (hi : i < n) (h : n ≤ N) :
    flag i (push w x) = flag i x := by
  simp [flag, getLsbD_push w x i h, hi]

theorem flag_push_hi {N n : Nat} (w : BitVec N) (x : BitVec n) (i : Nat) (hn : n ≤ i) (hi : i < N) :
    flag i (push w x) = flag (i - n) w := by
  unfold flag
  rw [getLsbD_push w x i (by omega), if_neg (by omega), decide_eq_true hi, Bool.true_and]

theorem fld_push_lo {N n : Nat} (w : BitVec N) (x : BitVec n) (s l : Nat) (hi : s + l ≤ n) (h : n ≤ N) :
    fld s l (push w x) = fld s l x := by
  apply BitVec.eq_of_getLsbD_eq
  intro i hl
  simp only [fld, BitVec.getLsbD_extractLsb', getLsbD_push w x _ h]
  simp [show s + i < n by omega]

theorem fld_push_hi {N n : Nat} (w : BitVec N) (x : BitVec n) (s l : Nat) (hn : n ≤ s) (hi : s + l ≤ N) :
    fld s l (push w x) = fld (s - n) l w := by
  apply BitVec.eq_of_getLsbD_eq
  intro i hl
  simp only [fld, BitVec.getLsbD_extractLsb', getLsbD_push w x _ (show n ≤ N by omega)]
  simp [show ¬ s + i < n by omega, show s + i < N by omega, show s + i - n = s - n + i by omega]

theorem fld_zero {n : Nat} (x : BitVec n) : fld 0 n x = x := by
  apply BitVec.eq_of_getLsbD_eq
  intro i hl
  simp [fld, hl]

theorem fld_push_self {N n : Nat} (w : BitVec N) (x : BitVec n) (h : n ≤ N) : fld 0 n (push w x) = x := by
  rw [fld_push_lo w x 0 n (by omega) h, fld_zero]

@[simp] theorem flag_bit (b : Bool) : flag 0 (bit b) = b := by cases b <;> rfl

theorem flag_fld {N : Nat} (s l i : Nat) (w : BitVec N) : flag i (fld s l w) = (decide (i < l) && flag (s + i) w) := by
  simp [flag, fld, BitVec.getLsbD_extractLsb']

theorem flag_eq_of_ge {N : Nat} (i : Nat) (w : BitVec N) (h : N ≤ i) : flag i w = false :=
  BitVec.getLsbD_of_ge _ _ h

/-- A field equals a constant when each of its bits does. -/
theorem fld_eq_iff {N : Nat} (s l : Nat) (w : BitVec N) (k : BitVec l) :
    fld s l w = k ↔ ∀ i, i < l → flag (s + i) w = flag i k := by
  constructor
  · rintro rfl i hi
    simp [flag_fld, hi]
  · intro h
    apply BitVec.eq_of_getLsbD_eq
    intro i hi
    simpa [flag, fld, BitVec.getLsbD_extractLsb', hi] using h i hi

/-- Two words are equal when each of their bits is. -/
theorem eq_of_flag {N : Nat} {v w : BitVec N} (h : ∀ i, i < N → flag i v = flag i w) : v = w :=
  BitVec.eq_of_getLsbD_eq h

/-- A field is split at a boundary: the part above and the part below. -/
theorem fld_split {N : Nat} (s l m : Nat) (w : BitVec N) (k : BitVec l) (hm : m ≤ l) :
    fld s l w = k ↔ fld (s + m) (l - m) w = fld m (l - m) k ∧ fld s m w = fld 0 m k := by
  simp only [fld_eq_iff, flag_fld]
  constructor
  · intro h
    refine ⟨fun i hi => ?_, fun i hi => ?_⟩
    · have := h (m + i) (by omega)
      simp [hi, ← this, Nat.add_assoc]
    · simpa [hi] using h i (by omega)
  · rintro ⟨h1, h2⟩ i hi
    by_cases him : i < m
    · simpa [him] using h2 i him
    · have := h1 (i - m) (by omega)
      rw [show s + m + (i - m) = s + i by omega, show m + (i - m) = i by omega] at this
      simpa [show i - m < l - m by omega] using this

end Sys2Proof
end

