-- ==== Sys2Proof/Laws/Blocks.lean ====
section
/-! SUPPORT. The ends of multiple loads and stores, answered or aborted. -/

set_option Elab.async false

namespace Sys2Proof.Machine

/-- What a sequence of stores leaves in memory. -/
theorem storedWords_putStored (s t : State) (words : List Word) (a : Word) (hw : Memory.wf s.mem = true)
    (hl : words.length ≤ 2 ^ 30) (hm : t.mem = (putStored words a s).mem) (hi : t.imem = s.imem) :
    StoredWords s t words a := by
  refine ⟨fun k hk => ?_, fun x hx => ?_, fun x => by rw [hi]⟩
  · rw [hm]
    exact putStored_same words a s hw hl k hk
  · rw [hm]
    exact putStored_other words a s x hx

/-- The end of a store multiple. -/
theorem storesMany_putStored (s : State) (len : Word) (words : List Word) (a : Word) (rn : Reg) (base : Option Word)
    (hz : Bool) (hw : Memory.wf s.mem = true) (hl : words.length ≤ 2 ^ 30) (hrn : ∀ b, base = some b → rn ≠ 15) :
    StoresMany s len words a rn base hz
      { advance len (base.elim (putStored words a s) fun b => setReg rn b (putStored words a s)) with
        userBankHazard := hz } := by
  cases base with
  | none =>
    exact ⟨storedWords_putStored s _ words a hw hl rfl (by simp), by simp, regsKept_of (by simp) _, by simp, by simp, rfl,
      ⟨by simp, by simp, by simp, by simp, by simp⟩, ⟨by simp, by simp, by simp, by simp, by simp⟩, by simp,
      latchKept_putStored words a s, by simp⟩
  | some b =>
    refine ⟨storedWords_putStored s _ words a hw hl (by simp) (by simp), ?_, ?_, by simp, by simp, rfl,
      ⟨by simp, by simp, by simp, by simp, by simp⟩, ⟨by simp, by simp, by simp, by simp, by simp⟩, by simp,
      fun hk => (setReg_chainOut _ _ _).trans (latchKept_putStored words a s hk), by simp⟩
    · rintro _ ⟨⟩
      have h := regAt_setReg_same rn b (putStored words a s) (hrn b rfl)
      rw [mode_putStored] at h
      exact h
    · intro m n hn hp
      have h := regAt_setReg_other m rn n b (putStored words a s) (by
        rw [mode_putStored]
        exact hp (mode s, rn) (by simp))
      exact h.trans (regAt_congr (by simp) _ _)

/-- The end of a load multiple: `t` differs from the loaded state in the CPSR, the PC, the markers and the latch only. -/
theorem loadsMany_putLoaded (s : State) (m : ModeBits) (regs : List Reg) (a : Word) (rn : Reg) (base : Option Word)
    (hd : regs.Nodup) (h15 : (15 : Reg) ∉ regs)
    (hrn : ∀ b, base = some b → rn ≠ 15 ∧ ∀ r ∈ regs, bankIndex m r ≠ bankIndex (mode s) rn) (t : State)
    (hk : LatchKept s t)
    (ht : { t with cpsr := s.cpsr, pc := s.pc, userBankHazard := s.userBankHazard, stale := s.stale,
                   pcWrapped := s.pcWrapped, chainOut := s.chainOut } =
      { (base.elim (putLoaded (setRegAt m) regs a s) fun b => setReg rn b (putLoaded (setRegAt m) regs a s)) with
        chainOut := s.chainOut }) :
    LoadsMany s m regs a rn base t.pc t.cpsr t.userBankHazard t := by
  have key : ∀ {α : Type} (g : State → α)
      (_ : g { t with cpsr := s.cpsr, pc := s.pc, userBankHazard := s.userBankHazard, stale := s.stale,
                      pcWrapped := s.pcWrapped, chainOut := s.chainOut } = g t)
      (_ : g { (putLoaded (setRegAt m) regs a s) with chainOut := s.chainOut } = g s)
      (_ : ∀ b, g { (setReg rn b (putLoaded (setRegAt m) regs a s)) with chainOut := s.chainOut } = g s), g t = g s := by
    intro α g hg h0 h1
    rw [← hg, ht]
    cases base
    · exact h0
    · exact h1 _
  have hr : ∀ m' n, regAt t m' n =
      regAt (base.elim (putLoaded (setRegAt m) regs a s) fun b => setReg rn b (putLoaded (setRegAt m) regs a s)) m' n := by
    intro m' n
    exact regAt_congr (congrArg State.regs ht) m' n
  refine ⟨fun k hk => ?_, fun b hb => ?_, fun m' n hn hp => ?_, rfl, rfl, rfl,
    ⟨key _ rfl (by simp) (by simp), key _ rfl (by simp) (by simp), key _ rfl (by simp) (by simp),
      key _ rfl (by simp) (by simp), key _ rfl (by simp) (by simp)⟩,
    ⟨key _ rfl (by simp) (by simp), key _ rfl (by simp) (by simp), key _ rfl (by simp) (by simp),
      key _ rfl (by simp) (by simp), key _ rfl (by simp) (by simp)⟩,
    key _ rfl (by simp) (by simp), ?_, key _ rfl (by simp) (by simp),
    memKept_of (key _ rfl (by simp) (by simp)) (key _ rfl (by simp) (by simp))⟩
  rotate_left 3
  · exact hk
  · rw [hr]
    have hk15 : regs[k] ≠ 15 := fun e => h15 (e ▸ List.getElem_mem hk)
    cases base with
    | none => exact regAt_putLoaded m regs a s hd k hk hk15
    | some b =>
      show regAt (setReg rn b _) _ _ = _
      rw [regAt_setReg_other, regAt_putLoaded m regs a s hd k hk hk15]
      rw [mode_putLoaded]
      exact (hrn b rfl).2 _ (List.getElem_mem hk)
  · rw [hr]
    subst hb
    have h := regAt_setReg_same rn b (putLoaded (setRegAt m) regs a s) (hrn b rfl).1
    rwa [mode_putLoaded] at h
  · rw [hr]
    have hl : regAt (putLoaded (setRegAt m) regs a s) m' n = regAt s m' n :=
      regsKept_putLoaded m regs a s m' n fun r hr' _ => hp (m, r) (by simp [hr'])
    cases base with
    | none => exact hl
    | some b =>
      show regAt (setReg rn b _) _ _ = _
      rw [regAt_setReg_other, hl]
      rw [mode_putLoaded]
      exact hp (mode s, rn) (by simp)

/-- A listed r15 is loaded by nothing but the end of the instruction: its transfer only shows on the bus. -/
theorem putLoaded_pcLast (m : ModeBits) (regs : List Reg) (a : Word) (s : State) :
    ∃ acc v, acc.fetch = false ∧
      putLoaded (setRegAt m) (regs ++ [15]) a s = latched acc v (putLoaded (setRegAt m) regs a s) := by
  induction regs generalizing a s with
  | nil => exact ⟨dataAccess s false .word false false a, readMem s .word a, rfl, by simp [putLoaded, setRegAt]⟩
  | cons r rs ih => exact ih _ _

/-- A list of registers is no longer than its mask is wide. -/
theorem length_listedRegs {n : Nat} (list : BitVec n) : (listedRegs list).length ≤ n := by
  unfold listedRegs
  rw [List.length_map]
  exact (List.length_filter_le _ _).trans (by simp)

/-- A load multiple that aborts at transfer `j`: the registers before it are loaded, the base is restored, and the Data
Abort is taken. -/
theorem loadList_abortsData (m : ModeBits) (rn : Reg) (regs : List Reg) (hd : regs.Nodup) (a : Word) (s : State) (j : Nat)
    (hj : j < regs.length) (h15 : ∀ q ∈ regs.take j, q ≠ 15) (h : LoadsAnswered s a j)
    (hab : dataAnswer (loadsSeen s a j) (dataAccess s false .word false false (a + BitVec.ofNat 32 (4 * j))) 0 =
      .abort) (k : State → Result) :
    let isBase := fun q : Reg => rn != 15 && bankIndex m q == bankIndex (mode s) rn
    Completes ((loadList (setRegAt m) (setReg rn (armReg s rn)) regs a s).thenDo k) fun t => MemKept s t ∧
      (∀ k, k < j → ∀ h : k < regs.length, isBase regs[k] = false → bankIndex m regs[k] ≠ bankIndex modeAbt 14 →
        regAt t m regs[k] = readMem s .word (a + BitVec.ofNat 32 (4 * k))) ∧
      AbortsData s (((regs.take j).filter fun q => !isBase q).map fun q => (m, q)) s.dbg s.cops t := by
  intro isBase
  obtain ⟨acc, hf, e⟩ := loadList_abort (setRegAt m) (setReg rn (armReg s rn))
    (fun r v t => ⟨sameBus_setRegAt m r v t, by simp⟩) regs a s j hj h hab
  rw [e]
  generalize hu : setReg rn (armReg s rn) (latchedAbort acc 0 (putLoaded (setRegAt m) (regs.take j) a s)) = u
  have hother : ∀ m' q, (rn = 15 ∨ bankIndex m' q ≠ bankIndex (mode s) rn) →
      regAt u m' q = regAt (putLoaded (setRegAt m) (regs.take j) a s) m' q := by
    intro m' q hq
    rw [← hu]
    rcases hq with rfl | hq
    · simp [setReg, setRegAt]
      exact regAt_congr (by simp) _ _
    · rw [regAt_setReg_other _ _ _ _ _ (by simpa using hq)]
      exact regAt_congr (by simp) _ _
  have hm : u.mem = s.mem := by simp [← hu]
  have hi : u.imem = s.imem := by simp [← hu]
  have hA : AbortsData s (((regs.take j).filter fun q => !isBase q).map fun q => (m, q)) u.dbg u.cops (dataAbort u) := by
    refine abortsData_dataAbort ?_ (by simp [← hu]) (by simp [← hu]) (fun m' => ?_) ⟨?_, ?_, ?_, ?_, ?_⟩ ?_
    · intro m' n hn hx
      by_cases hb : rn = 15 ∨ bankIndex m' n ≠ bankIndex (mode s) rn
      · rw [hother m' n hb]
        refine regsKept_putLoaded m _ a s m' n fun q hq hq15 hne => ?_
        refine hx (m, q) ?_ hne
        simp only [List.mem_map, List.mem_filter]
        refine ⟨q, ⟨hq, ?_⟩, rfl⟩
        rcases hb with rfl | hb
        · simp [isBase]
        · rw [hne] at hb
          simp [isBase, hb]
      · have hb' : rn ≠ 15 ∧ bankIndex m' n = bankIndex (mode s) rn := by
          by_contra hc
          apply hb
          by_cases h1 : rn = 15
          · exact .inl h1
          · exact .inr fun h2 => hc ⟨h1, h2⟩
        have h1 := regAt_setReg_same rn (armReg s rn) (latchedAbort acc 0 (putLoaded (setRegAt m) (regs.take j) a s)) hb'.1
        rw [hu, mode_latchedAbort, mode_putLoaded] at h1
        simp only [regAt, hb'.2]
        rw [armReg, readReg, if_neg hb'.1] at h1
        exact h1
    · simp [spsrAt, ← hu]
    all_goals try simp [← hu]
    intro hk
    rw [setReg_chainOut]
    exact ((latchKept_putLoaded m (regs.take j) a s).trans (latchKept_latchedAbort acc hf 0 _) (by simp) (by simp)) hk
  have hdbg : u.dbg = s.dbg := by simp [← hu]
  have hcops : u.cops = s.cops := by simp [← hu]
  rw [hdbg, hcops] at hA
  refine ⟨_, rfl, memKept_of (by simp [dataAbort, hm]) (by simp [dataAbort, hi]), fun i hij hir hb hne => ?_, hA⟩
  have hq15 : regs[i] ≠ 15 := h15 _ (List.mem_take_iff_getElem.mpr ⟨i, by omega, rfl⟩)
  have hE := enters_takeException .dataAbort (u.pc + 8) u (by decide) (by decide)
  refine (hE.regs m regs[i] hq15 (by simpa [Exception.entryMode] using hne)).trans ?_
  rw [hother]
  · have hlen : i < (regs.take j).length := by simp; omega
    have := regAt_putLoaded m (regs.take j) a s (hd.sublist (List.take_sublist _ _)) i hlen (by simpa using hq15)
    simpa using this
  · simp only [isBase, Bool.and_eq_false_iff] at hb
    simpa [bne_eq_false_iff_eq] using hb

/-- A store multiple that aborts at transfer `j`: the words before it are stored and the Data Abort is taken. -/
theorem storeList_abortsData (words : List Word) (a : Word) (s : State) (hw : Memory.wf s.mem = true)
    (hl : words.length ≤ 2 ^ 30) (j : Nat) (hj : j < words.length) (h : StoresAnswered s (words.take j) a)
    (hab : dataAnswer (storesSeen s (words.take j) a)
      (dataAccess s false .word true false (a + BitVec.ofNat 32 (4 * j))) words[j] = .abort) (k : State → Result) :
    Completes ((storeList words a s).thenDo k) fun t =>
      StoredWords s t (words.take j) a ∧ AbortsData s [] s.dbg s.cops t := by
  obtain ⟨acc, hf, e⟩ := storeList_abort words a s j hj h hab
  rw [e]
  generalize hu : latchedAbort acc words[j] (putStored (words.take j) a s) = u
  refine ⟨_, rfl, storedWords_putStored s _ _ a hw (by simp; omega) (by simp [dataAbort, ← hu]) (by simp [dataAbort, ← hu]), ?_⟩
  have hA : AbortsData s [] u.dbg u.cops (dataAbort u) := by
    refine abortsData_dataAbort (regsKept_of (by simp [← hu]) _) (by simp [← hu]) (by simp [← hu]) (fun m' => ?_)
      ⟨?_, ?_, ?_, ?_, ?_⟩ ?_
    · simp [spsrAt, ← hu]
    all_goals try simp [← hu]
    exact (latchKept_putStored (words.take j) a s).trans (latchKept_latchedAbort acc hf _ _) (by simp) (by simp)
  have hdbg : u.dbg = s.dbg := by simp [← hu]
  have hcops : u.cops = s.cops := by simp [← hu]
  rwa [hdbg, hcops] at hA

end Sys2Proof.Machine
end

