-- ==== Sys2Proof/Laws/PerInstr.lean ====
section
/-! SUPPORT. What holds of every instruction, one lemma for each constructor. -/

set_option Elab.async false

namespace Sys2Proof.Laws.ConditionField

open Sys2Proof.Machine

/-- The top four bits of an ARM instruction's word are its condition, or 1111 in the unconditional space
(spec/30_encoding.md R134, R135). -/
def Statement (i : Instr) : Prop :=
  i.isThumb = false → fld 28 4 (encodeArm i) = (condOf i).bits ∨ fld 28 4 (encodeArm i) = 0b1111#4

/-- A field above or below what was pushed last. -/
theorem cond_of_fld {i : Instr} (h : fld 28 4 (encodeArm i) = (condOf i).bits) : Statement i := fun _ => .inl h

theorem uncond_of_fld {i : Instr} (h : fld 28 4 (encodeArm i) = 0b1111#4) : Statement i := fun _ => .inr h

theorem pld (i : Bool) (u : Bool) (rn : Reg) (addrMode : BitVec 12) : Statement (.pld i u rn addrMode) :=
  uncond_of_fld (by simp (disch := omega) only [encodeArm, fld_push_hi, fld_push_lo]; rfl)
theorem blxImm (h : Bool) (imm24 : BitVec 24) : Statement (.blxImm h imm24) :=
  uncond_of_fld (by simp (disch := omega) only [encodeArm, fld_push_hi, fld_push_lo]; rfl)
theorem unallocUncondCop (n : Bool) (rest : BitVec 21) : Statement (.unallocUncondCop n rest) :=
  uncond_of_fld (by simp (disch := omega) only [encodeArm, fld_push_hi, fld_push_lo]; rfl)
theorem ldc2 (p : Bool) (u : Bool) (n : Bool) (w : Bool) (rn : Reg) (crd : BitVec 4) (cp : BitVec 4) (offset8 : BitVec 8) : Statement (.ldc2 p u n w rn crd cp offset8) :=
  uncond_of_fld (by simp (disch := omega) only [encodeArm, fld_push_hi, fld_push_lo]; rfl)
theorem stc2 (p : Bool) (u : Bool) (n : Bool) (w : Bool) (rn : Reg) (crd : BitVec 4) (cp : BitVec 4) (offset8 : BitVec 8) : Statement (.stc2 p u n w rn crd cp offset8) :=
  uncond_of_fld (by simp (disch := omega) only [encodeArm, fld_push_hi, fld_push_lo]; rfl)
theorem cdp2 (op1 : BitVec 4) (crn : BitVec 4) (crd : BitVec 4) (cp : BitVec 4) (op2 : BitVec 3) (crm : BitVec 4) : Statement (.cdp2 op1 crn crd cp op2 crm) :=
  uncond_of_fld (by simp (disch := omega) only [encodeArm, fld_push_hi, fld_push_lo]; rfl)
theorem mcr2 (op1 : BitVec 3) (crn : BitVec 4) (rd : Reg) (cp : BitVec 4) (op2 : BitVec 3) (crm : BitVec 4) : Statement (.mcr2 op1 crn rd cp op2 crm) :=
  uncond_of_fld (by simp (disch := omega) only [encodeArm, fld_push_hi, fld_push_lo]; rfl)
theorem mrc2 (op1 : BitVec 3) (crn : BitVec 4) (rd : Reg) (cp : BitVec 4) (op2 : BitVec 3) (crm : BitVec 4) : Statement (.mrc2 op1 crn rd cp op2 crm) :=
  uncond_of_fld (by simp (disch := omega) only [encodeArm, fld_push_hi, fld_push_lo]; rfl)
theorem unallocUncond (bits : BitVec 28) : Statement (.unallocUncond bits) :=
  uncond_of_fld (by simp (disch := omega) only [encodeArm, fld_push_hi, fld_push_lo]; rfl)
theorem nop : Statement .nop := cond_of_fld (by decide)
theorem mul (c : Cond) (sf : Bool) (rd : Reg) (sbz : BitVec 4) (rs : Reg) (rm : Reg) : Statement (.mul c sf rd sbz rs rm) :=
  cond_of_fld (by simp (disch := omega) only [encodeArm, fld_push_hi, fld_push_lo, condOf]; exact fld_zero _)
theorem mla (c : Cond) (sf : Bool) (rd : Reg) (rn : Reg) (rs : Reg) (rm : Reg) : Statement (.mla c sf rd rn rs rm) :=
  cond_of_fld (by simp (disch := omega) only [encodeArm, fld_push_hi, fld_push_lo, condOf]; exact fld_zero _)
theorem umull (c : Cond) (sf : Bool) (rdHi : Reg) (rdLo : Reg) (rs : Reg) (rm : Reg) : Statement (.umull c sf rdHi rdLo rs rm) :=
  cond_of_fld (by simp (disch := omega) only [encodeArm, fld_push_hi, fld_push_lo, condOf]; exact fld_zero _)
theorem umlal (c : Cond) (sf : Bool) (rdHi : Reg) (rdLo : Reg) (rs : Reg) (rm : Reg) : Statement (.umlal c sf rdHi rdLo rs rm) :=
  cond_of_fld (by simp (disch := omega) only [encodeArm, fld_push_hi, fld_push_lo, condOf]; exact fld_zero _)
theorem smull (c : Cond) (sf : Bool) (rdHi : Reg) (rdLo : Reg) (rs : Reg) (rm : Reg) : Statement (.smull c sf rdHi rdLo rs rm) :=
  cond_of_fld (by simp (disch := omega) only [encodeArm, fld_push_hi, fld_push_lo, condOf]; exact fld_zero _)
theorem smlal (c : Cond) (sf : Bool) (rdHi : Reg) (rdLo : Reg) (rs : Reg) (rm : Reg) : Statement (.smlal c sf rdHi rdLo rs rm) :=
  cond_of_fld (by simp (disch := omega) only [encodeArm, fld_push_hi, fld_push_lo, condOf]; exact fld_zero _)
theorem swp (c : Cond) (rn : Reg) (rd : Reg) (sbz : BitVec 4) (rm : Reg) : Statement (.swp c rn rd sbz rm) :=
  cond_of_fld (by simp (disch := omega) only [encodeArm, fld_push_hi, fld_push_lo, condOf]; exact fld_zero _)
theorem swpb (c : Cond) (rn : Reg) (rd : Reg) (sbz : BitVec 4) (rm : Reg) : Statement (.swpb c rn rd sbz rm) :=
  cond_of_fld (by simp (disch := omega) only [encodeArm, fld_push_hi, fld_push_lo, condOf]; exact fld_zero _)
theorem unallocMulSwp (c : Cond) (op : BitVec 5) (mid : BitVec 12) (low : BitVec 4) : Statement (.unallocMulSwp c op mid low) :=
  cond_of_fld (by simp (disch := omega) only [encodeArm, fld_push_hi, fld_push_lo, condOf]; exact fld_zero _)
theorem strh (c : Cond) (u : Bool) (idx : Index) (rn : Reg) (rd : Reg) (off : Offset3) : Statement (.strh c u idx rn rd off) :=
  cond_of_fld (by simp (disch := omega) only [encodeArm, fld_push_hi, fld_push_lo, condOf]; exact fld_zero _)
theorem ldrd (c : Cond) (u : Bool) (idx : Index) (rn : Reg) (rd : Reg) (off : Offset3) : Statement (.ldrd c u idx rn rd off) :=
  cond_of_fld (by simp (disch := omega) only [encodeArm, fld_push_hi, fld_push_lo, condOf]; exact fld_zero _)
theorem strd (c : Cond) (u : Bool) (idx : Index) (rn : Reg) (rd : Reg) (off : Offset3) : Statement (.strd c u idx rn rd off) :=
  cond_of_fld (by simp (disch := omega) only [encodeArm, fld_push_hi, fld_push_lo, condOf]; exact fld_zero _)
theorem ldrh (c : Cond) (u : Bool) (idx : Index) (rn : Reg) (rd : Reg) (off : Offset3) : Statement (.ldrh c u idx rn rd off) :=
  cond_of_fld (by simp (disch := omega) only [encodeArm, fld_push_hi, fld_push_lo, condOf]; exact fld_zero _)
theorem ldrsb (c : Cond) (u : Bool) (idx : Index) (rn : Reg) (rd : Reg) (off : Offset3) : Statement (.ldrsb c u idx rn rd off) :=
  cond_of_fld (by simp (disch := omega) only [encodeArm, fld_push_hi, fld_push_lo, condOf]; exact fld_zero _)
theorem ldrsh (c : Cond) (u : Bool) (idx : Index) (rn : Reg) (rd : Reg) (off : Offset3) : Statement (.ldrsh c u idx rn rd off) :=
  cond_of_fld (by simp (disch := omega) only [encodeArm, fld_push_hi, fld_push_lo, condOf]; exact fld_zero _)
theorem mrs (c : Cond) (r : Bool) (sbo : BitVec 4) (rd : Reg) (sbz1 : BitVec 4) (sbz2 : BitVec 4) : Statement (.mrs c r sbo rd sbz1 sbz2) :=
  cond_of_fld (by simp (disch := omega) only [encodeArm, fld_push_hi, fld_push_lo, condOf]; exact fld_zero _)
theorem msrReg (c : Cond) (r : Bool) (mask : BitVec 4) (sbo : BitVec 4) (sbz : BitVec 4) (rm : Reg) : Statement (.msrReg c r mask sbo sbz rm) :=
  cond_of_fld (by simp (disch := omega) only [encodeArm, fld_push_hi, fld_push_lo, condOf]; exact fld_zero _)
theorem bx (c : Cond) (sbo : BitVec 12) (rm : Reg) : Statement (.bx c sbo rm) :=
  cond_of_fld (by simp (disch := omega) only [encodeArm, fld_push_hi, fld_push_lo, condOf]; exact fld_zero _)
theorem blxReg (c : Cond) (sbo : BitVec 12) (rm : Reg) : Statement (.blxReg c sbo rm) :=
  cond_of_fld (by simp (disch := omega) only [encodeArm, fld_push_hi, fld_push_lo, condOf]; exact fld_zero _)
theorem clz (c : Cond) (sbo1 : BitVec 4) (rd : Reg) (sbo2 : BitVec 4) (rm : Reg) : Statement (.clz c sbo1 rd sbo2 rm) :=
  cond_of_fld (by simp (disch := omega) only [encodeArm, fld_push_hi, fld_push_lo, condOf]; exact fld_zero _)
theorem qadd (c : Cond) (rn : Reg) (rd : Reg) (sbz : BitVec 4) (rm : Reg) : Statement (.qadd c rn rd sbz rm) :=
  cond_of_fld (by simp (disch := omega) only [encodeArm, fld_push_hi, fld_push_lo, condOf]; exact fld_zero _)
theorem qsub (c : Cond) (rn : Reg) (rd : Reg) (sbz : BitVec 4) (rm : Reg) : Statement (.qsub c rn rd sbz rm) :=
  cond_of_fld (by simp (disch := omega) only [encodeArm, fld_push_hi, fld_push_lo, condOf]; exact fld_zero _)
theorem qdadd (c : Cond) (rn : Reg) (rd : Reg) (sbz : BitVec 4) (rm : Reg) : Statement (.qdadd c rn rd sbz rm) :=
  cond_of_fld (by simp (disch := omega) only [encodeArm, fld_push_hi, fld_push_lo, condOf]; exact fld_zero _)
theorem qdsub (c : Cond) (rn : Reg) (rd : Reg) (sbz : BitVec 4) (rm : Reg) : Statement (.qdsub c rn rd sbz rm) :=
  cond_of_fld (by simp (disch := omega) only [encodeArm, fld_push_hi, fld_push_lo, condOf]; exact fld_zero _)
theorem bkpt (c : Cond) (immHi : BitVec 12) (immLo : BitVec 4) : Statement (.bkpt c immHi immLo) :=
  cond_of_fld (by simp (disch := omega) only [encodeArm, fld_push_hi, fld_push_lo, condOf]; exact fld_zero _)
theorem smlaXY (c : Cond) (rd : Reg) (rn : Reg) (rs : Reg) (y : Bool) (x : Bool) (rm : Reg) : Statement (.smlaXY c rd rn rs y x rm) :=
  cond_of_fld (by simp (disch := omega) only [encodeArm, fld_push_hi, fld_push_lo, condOf]; exact fld_zero _)
theorem smlawY (c : Cond) (rd : Reg) (rn : Reg) (rs : Reg) (y : Bool) (rm : Reg) : Statement (.smlawY c rd rn rs y rm) :=
  cond_of_fld (by simp (disch := omega) only [encodeArm, fld_push_hi, fld_push_lo, condOf]; exact fld_zero _)
theorem smulwY (c : Cond) (rd : Reg) (sbz : BitVec 4) (rs : Reg) (y : Bool) (rm : Reg) : Statement (.smulwY c rd sbz rs y rm) :=
  cond_of_fld (by simp (disch := omega) only [encodeArm, fld_push_hi, fld_push_lo, condOf]; exact fld_zero _)
theorem smlalXY (c : Cond) (rdHi : Reg) (rdLo : Reg) (rs : Reg) (y : Bool) (x : Bool) (rm : Reg) : Statement (.smlalXY c rdHi rdLo rs y x rm) :=
  cond_of_fld (by simp (disch := omega) only [encodeArm, fld_push_hi, fld_push_lo, condOf]; exact fld_zero _)
theorem smulXY (c : Cond) (rd : Reg) (sbz : BitVec 4) (rs : Reg) (y : Bool) (x : Bool) (rm : Reg) : Statement (.smulXY c rd sbz rs y x rm) :=
  cond_of_fld (by simp (disch := omega) only [encodeArm, fld_push_hi, fld_push_lo, condOf]; exact fld_zero _)
theorem unallocMisc (c : Cond) (op : BitVec 2) (mid : BitVec 12) (lo : BitVec 4) (low : BitVec 4) : Statement (.unallocMisc c op mid lo low) :=
  cond_of_fld (by simp (disch := omega) only [encodeArm, fld_push_hi, fld_push_lo, condOf]; exact fld_zero _)
theorem msrImm (c : Cond) (r : Bool) (mask : BitVec 4) (sbo : BitVec 4) (rot : BitVec 4) (imm8 : BitVec 8) : Statement (.msrImm c r mask sbo rot imm8) :=
  cond_of_fld (by simp (disch := omega) only [encodeArm, fld_push_hi, fld_push_lo, condOf]; exact fld_zero _)
theorem unalloc00110 (c : Cond) (r : Bool) (rest : BitVec 20) : Statement (.unalloc00110 c r rest) :=
  cond_of_fld (by simp (disch := omega) only [encodeArm, fld_push_hi, fld_push_lo, condOf]; exact fld_zero _)
theorem armAnd (c : Cond) (sf : Bool) (rn : Reg) (rd : Reg) (op2 : Operand2) : Statement (.armAnd c sf rn rd op2) :=
  cond_of_fld (by simp (disch := omega) only [encodeArm, fld_push_hi, fld_push_lo, condOf]; exact fld_zero _)
theorem armEor (c : Cond) (sf : Bool) (rn : Reg) (rd : Reg) (op2 : Operand2) : Statement (.armEor c sf rn rd op2) :=
  cond_of_fld (by simp (disch := omega) only [encodeArm, fld_push_hi, fld_push_lo, condOf]; exact fld_zero _)
theorem armSub (c : Cond) (sf : Bool) (rn : Reg) (rd : Reg) (op2 : Operand2) : Statement (.armSub c sf rn rd op2) :=
  cond_of_fld (by simp (disch := omega) only [encodeArm, fld_push_hi, fld_push_lo, condOf]; exact fld_zero _)
theorem armRsb (c : Cond) (sf : Bool) (rn : Reg) (rd : Reg) (op2 : Operand2) : Statement (.armRsb c sf rn rd op2) :=
  cond_of_fld (by simp (disch := omega) only [encodeArm, fld_push_hi, fld_push_lo, condOf]; exact fld_zero _)
theorem armAdd (c : Cond) (sf : Bool) (rn : Reg) (rd : Reg) (op2 : Operand2) : Statement (.armAdd c sf rn rd op2) :=
  cond_of_fld (by simp (disch := omega) only [encodeArm, fld_push_hi, fld_push_lo, condOf]; exact fld_zero _)
theorem armAdc (c : Cond) (sf : Bool) (rn : Reg) (rd : Reg) (op2 : Operand2) : Statement (.armAdc c sf rn rd op2) :=
  cond_of_fld (by simp (disch := omega) only [encodeArm, fld_push_hi, fld_push_lo, condOf]; exact fld_zero _)
theorem armSbc (c : Cond) (sf : Bool) (rn : Reg) (rd : Reg) (op2 : Operand2) : Statement (.armSbc c sf rn rd op2) :=
  cond_of_fld (by simp (disch := omega) only [encodeArm, fld_push_hi, fld_push_lo, condOf]; exact fld_zero _)
theorem armRsc (c : Cond) (sf : Bool) (rn : Reg) (rd : Reg) (op2 : Operand2) : Statement (.armRsc c sf rn rd op2) :=
  cond_of_fld (by simp (disch := omega) only [encodeArm, fld_push_hi, fld_push_lo, condOf]; exact fld_zero _)
theorem armTst (c : Cond) (rn : Reg) (sbz : BitVec 4) (op2 : Operand2) : Statement (.armTst c rn sbz op2) :=
  cond_of_fld (by simp (disch := omega) only [encodeArm, fld_push_hi, fld_push_lo, condOf]; exact fld_zero _)
theorem armTeq (c : Cond) (rn : Reg) (sbz : BitVec 4) (op2 : Operand2) : Statement (.armTeq c rn sbz op2) :=
  cond_of_fld (by simp (disch := omega) only [encodeArm, fld_push_hi, fld_push_lo, condOf]; exact fld_zero _)
theorem armCmp (c : Cond) (rn : Reg) (sbz : BitVec 4) (op2 : Operand2) : Statement (.armCmp c rn sbz op2) :=
  cond_of_fld (by simp (disch := omega) only [encodeArm, fld_push_hi, fld_push_lo, condOf]; exact fld_zero _)
theorem armCmn (c : Cond) (rn : Reg) (sbz : BitVec 4) (op2 : Operand2) : Statement (.armCmn c rn sbz op2) :=
  cond_of_fld (by simp (disch := omega) only [encodeArm, fld_push_hi, fld_push_lo, condOf]; exact fld_zero _)
theorem armOrr (c : Cond) (sf : Bool) (rn : Reg) (rd : Reg) (op2 : Operand2) : Statement (.armOrr c sf rn rd op2) :=
  cond_of_fld (by simp (disch := omega) only [encodeArm, fld_push_hi, fld_push_lo, condOf]; exact fld_zero _)
theorem armMov (c : Cond) (sf : Bool) (sbz : BitVec 4) (rd : Reg) (op2 : Operand2) : Statement (.armMov c sf sbz rd op2) :=
  cond_of_fld (by simp (disch := omega) only [encodeArm, fld_push_hi, fld_push_lo, condOf]; exact fld_zero _)
theorem armBic (c : Cond) (sf : Bool) (rn : Reg) (rd : Reg) (op2 : Operand2) : Statement (.armBic c sf rn rd op2) :=
  cond_of_fld (by simp (disch := omega) only [encodeArm, fld_push_hi, fld_push_lo, condOf]; exact fld_zero _)
theorem armMvn (c : Cond) (sf : Bool) (sbz : BitVec 4) (rd : Reg) (op2 : Operand2) : Statement (.armMvn c sf sbz rd op2) :=
  cond_of_fld (by simp (disch := omega) only [encodeArm, fld_push_hi, fld_push_lo, condOf]; exact fld_zero _)
theorem undefArm (c : Cond) (high : BitVec 20) (low : BitVec 4) : Statement (.undefArm c high low) :=
  cond_of_fld (by simp (disch := omega) only [encodeArm, fld_push_hi, fld_push_lo, condOf]; exact fld_zero _)
theorem ldrt (c : Cond) (u : Bool) (rn : Reg) (rd : Reg) (off : Offset2) : Statement (.ldrt c u rn rd off) :=
  cond_of_fld (by simp (disch := omega) only [encodeArm, fld_push_hi, fld_push_lo, condOf]; exact fld_zero _)
theorem ldrbt (c : Cond) (u : Bool) (rn : Reg) (rd : Reg) (off : Offset2) : Statement (.ldrbt c u rn rd off) :=
  cond_of_fld (by simp (disch := omega) only [encodeArm, fld_push_hi, fld_push_lo, condOf]; exact fld_zero _)
theorem strt (c : Cond) (u : Bool) (rn : Reg) (rd : Reg) (off : Offset2) : Statement (.strt c u rn rd off) :=
  cond_of_fld (by simp (disch := omega) only [encodeArm, fld_push_hi, fld_push_lo, condOf]; exact fld_zero _)
theorem strbt (c : Cond) (u : Bool) (rn : Reg) (rd : Reg) (off : Offset2) : Statement (.strbt c u rn rd off) :=
  cond_of_fld (by simp (disch := omega) only [encodeArm, fld_push_hi, fld_push_lo, condOf]; exact fld_zero _)
theorem ldr (c : Cond) (u : Bool) (idx : Index) (rn : Reg) (rd : Reg) (off : Offset2) : Statement (.ldr c u idx rn rd off) :=
  cond_of_fld (by simp (disch := omega) only [encodeArm, fld_push_hi, fld_push_lo, condOf]; exact fld_zero _)
theorem ldrb (c : Cond) (u : Bool) (idx : Index) (rn : Reg) (rd : Reg) (off : Offset2) : Statement (.ldrb c u idx rn rd off) :=
  cond_of_fld (by simp (disch := omega) only [encodeArm, fld_push_hi, fld_push_lo, condOf]; exact fld_zero _)
theorem str (c : Cond) (u : Bool) (idx : Index) (rn : Reg) (rd : Reg) (off : Offset2) : Statement (.str c u idx rn rd off) :=
  cond_of_fld (by simp (disch := omega) only [encodeArm, fld_push_hi, fld_push_lo, condOf]; exact fld_zero _)
theorem strb (c : Cond) (u : Bool) (idx : Index) (rn : Reg) (rd : Reg) (off : Offset2) : Statement (.strb c u idx rn rd off) :=
  cond_of_fld (by simp (disch := omega) only [encodeArm, fld_push_hi, fld_push_lo, condOf]; exact fld_zero _)
theorem ldm1 (c : Cond) (mode : BlockMode) (w : Bool) (rn : Reg) (list : BitVec 16) : Statement (.ldm1 c mode w rn list) :=
  cond_of_fld (by simp (disch := omega) only [encodeArm, fld_push_hi, fld_push_lo, condOf]; exact fld_zero _)
theorem ldm2 (c : Cond) (mode : BlockMode) (w : Bool) (rn : Reg) (list : BitVec 15) : Statement (.ldm2 c mode w rn list) :=
  cond_of_fld (by simp (disch := omega) only [encodeArm, fld_push_hi, fld_push_lo, condOf]; exact fld_zero _)
theorem ldm3 (c : Cond) (mode : BlockMode) (w : Bool) (rn : Reg) (list : BitVec 15) : Statement (.ldm3 c mode w rn list) :=
  cond_of_fld (by simp (disch := omega) only [encodeArm, fld_push_hi, fld_push_lo, condOf]; exact fld_zero _)
theorem stm1 (c : Cond) (mode : BlockMode) (w : Bool) (rn : Reg) (list : BitVec 16) : Statement (.stm1 c mode w rn list) :=
  cond_of_fld (by simp (disch := omega) only [encodeArm, fld_push_hi, fld_push_lo, condOf]; exact fld_zero _)
theorem stm2 (c : Cond) (mode : BlockMode) (w : Bool) (rn : Reg) (list : BitVec 16) : Statement (.stm2 c mode w rn list) :=
  cond_of_fld (by simp (disch := omega) only [encodeArm, fld_push_hi, fld_push_lo, condOf]; exact fld_zero _)
theorem b (c : Cond) (imm24 : BitVec 24) : Statement (.b c imm24) :=
  cond_of_fld (by simp (disch := omega) only [encodeArm, fld_push_hi, fld_push_lo, condOf]; exact fld_zero _)
theorem bl (c : Cond) (imm24 : BitVec 24) : Statement (.bl c imm24) :=
  cond_of_fld (by simp (disch := omega) only [encodeArm, fld_push_hi, fld_push_lo, condOf]; exact fld_zero _)
theorem mcrr (c : Cond) (rn : Reg) (rd : Reg) (cp : BitVec 4) (opc : BitVec 4) (crm : BitVec 4) : Statement (.mcrr c rn rd cp opc crm) :=
  cond_of_fld (by simp (disch := omega) only [encodeArm, fld_push_hi, fld_push_lo, condOf]; exact fld_zero _)
theorem mrrc (c : Cond) (rn : Reg) (rd : Reg) (cp : BitVec 4) (opc : BitVec 4) (crm : BitVec 4) : Statement (.mrrc c rn rd cp opc crm) :=
  cond_of_fld (by simp (disch := omega) only [encodeArm, fld_push_hi, fld_push_lo, condOf]; exact fld_zero _)
theorem unallocCop (c : Cond) (rest : BitVec 21) : Statement (.unallocCop c rest) :=
  cond_of_fld (by simp (disch := omega) only [encodeArm, fld_push_hi, fld_push_lo, condOf]; exact fld_zero _)
theorem ldc (c : Cond) (p : Bool) (u : Bool) (n : Bool) (w : Bool) (rn : Reg) (crd : BitVec 4) (cp : BitVec 4) (offset8 : BitVec 8) : Statement (.ldc c p u n w rn crd cp offset8) :=
  cond_of_fld (by simp (disch := omega) only [encodeArm, fld_push_hi, fld_push_lo, condOf]; exact fld_zero _)
theorem stc (c : Cond) (p : Bool) (u : Bool) (n : Bool) (w : Bool) (rn : Reg) (crd : BitVec 4) (cp : BitVec 4) (offset8 : BitVec 8) : Statement (.stc c p u n w rn crd cp offset8) :=
  cond_of_fld (by simp (disch := omega) only [encodeArm, fld_push_hi, fld_push_lo, condOf]; exact fld_zero _)
theorem cdp (c : Cond) (op1 : BitVec 4) (crn : BitVec 4) (crd : BitVec 4) (cp : BitVec 4) (op2 : BitVec 3) (crm : BitVec 4) : Statement (.cdp c op1 crn crd cp op2 crm) :=
  cond_of_fld (by simp (disch := omega) only [encodeArm, fld_push_hi, fld_push_lo, condOf]; exact fld_zero _)
theorem mcr (c : Cond) (op1 : BitVec 3) (crn : BitVec 4) (rd : Reg) (cp : BitVec 4) (op2 : BitVec 3) (crm : BitVec 4) : Statement (.mcr c op1 crn rd cp op2 crm) :=
  cond_of_fld (by simp (disch := omega) only [encodeArm, fld_push_hi, fld_push_lo, condOf]; exact fld_zero _)
theorem mrc (c : Cond) (op1 : BitVec 3) (crn : BitVec 4) (rd : Reg) (cp : BitVec 4) (op2 : BitVec 3) (crm : BitVec 4) : Statement (.mrc c op1 crn rd cp op2 crm) :=
  cond_of_fld (by simp (disch := omega) only [encodeArm, fld_push_hi, fld_push_lo, condOf]; exact fld_zero _)
theorem armSwi (c : Cond) (imm24 : BitVec 24) : Statement (.armSwi c imm24) :=
  cond_of_fld (by simp (disch := omega) only [encodeArm, fld_push_hi, fld_push_lo, condOf]; exact fld_zero _)
theorem tLslImm (imm5 : BitVec 5) (rs : LowReg) (rd : LowReg) : Statement (.tLslImm imm5 rs rd) := nofun
theorem tLsrImm (imm5 : BitVec 5) (rs : LowReg) (rd : LowReg) : Statement (.tLsrImm imm5 rs rd) := nofun
theorem tAsrImm (imm5 : BitVec 5) (rs : LowReg) (rd : LowReg) : Statement (.tAsrImm imm5 rs rd) := nofun
theorem tAddReg (rn : LowReg) (rs : LowReg) (rd : LowReg) : Statement (.tAddReg rn rs rd) := nofun
theorem tSubReg (rn : LowReg) (rs : LowReg) (rd : LowReg) : Statement (.tSubReg rn rs rd) := nofun
theorem tAddImm3 (imm3 : BitVec 3) (rs : LowReg) (rd : LowReg) : Statement (.tAddImm3 imm3 rs rd) := nofun
theorem tSubImm3 (imm3 : BitVec 3) (rs : LowReg) (rd : LowReg) : Statement (.tSubImm3 imm3 rs rd) := nofun
theorem tMovImm (rd : LowReg) (imm8 : BitVec 8) : Statement (.tMovImm rd imm8) := nofun
theorem tCmpImm (rd : LowReg) (imm8 : BitVec 8) : Statement (.tCmpImm rd imm8) := nofun
theorem tAddImm8 (rd : LowReg) (imm8 : BitVec 8) : Statement (.tAddImm8 rd imm8) := nofun
theorem tSubImm8 (rd : LowReg) (imm8 : BitVec 8) : Statement (.tSubImm8 rd imm8) := nofun
theorem tAnd (rs : LowReg) (rd : LowReg) : Statement (.tAnd rs rd) := nofun
theorem tEor (rs : LowReg) (rd : LowReg) : Statement (.tEor rs rd) := nofun
theorem tLslReg (rs : LowReg) (rd : LowReg) : Statement (.tLslReg rs rd) := nofun
theorem tLsrReg (rs : LowReg) (rd : LowReg) : Statement (.tLsrReg rs rd) := nofun
theorem tAsrReg (rs : LowReg) (rd : LowReg) : Statement (.tAsrReg rs rd) := nofun
theorem tAdc (rs : LowReg) (rd : LowReg) : Statement (.tAdc rs rd) := nofun
theorem tSbc (rs : LowReg) (rd : LowReg) : Statement (.tSbc rs rd) := nofun
theorem tRor (rs : LowReg) (rd : LowReg) : Statement (.tRor rs rd) := nofun
theorem tTst (rs : LowReg) (rd : LowReg) : Statement (.tTst rs rd) := nofun
theorem tNeg (rs : LowReg) (rd : LowReg) : Statement (.tNeg rs rd) := nofun
theorem tCmpReg (rs : LowReg) (rd : LowReg) : Statement (.tCmpReg rs rd) := nofun
theorem tCmn (rs : LowReg) (rd : LowReg) : Statement (.tCmn rs rd) := nofun
theorem tOrr (rs : LowReg) (rd : LowReg) : Statement (.tOrr rs rd) := nofun
theorem tMul (rs : LowReg) (rd : LowReg) : Statement (.tMul rs rd) := nofun
theorem tBic (rs : LowReg) (rd : LowReg) : Statement (.tBic rs rd) := nofun
theorem tMvn (rs : LowReg) (rd : LowReg) : Statement (.tMvn rs rd) := nofun
theorem tAddHigh (h1 : Bool) (h2 : Bool) (rs : LowReg) (rd : LowReg) : Statement (.tAddHigh h1 h2 rs rd) := nofun
theorem tCmpHigh (h1 : Bool) (h2 : Bool) (rs : LowReg) (rd : LowReg) : Statement (.tCmpHigh h1 h2 rs rd) := nofun
theorem tMovHigh (h1 : Bool) (h2 : Bool) (rs : LowReg) (rd : LowReg) : Statement (.tMovHigh h1 h2 rs rd) := nofun
theorem tBx (rs : Reg) (sbz : BitVec 3) : Statement (.tBx rs sbz) := nofun
theorem tBlxReg (rs : Reg) (sbz : BitVec 3) : Statement (.tBlxReg rs sbz) := nofun
theorem tLdrPc (rd : LowReg) (imm8 : BitVec 8) : Statement (.tLdrPc rd imm8) := nofun
theorem tStrReg (ro : LowReg) (rb : LowReg) (rd : LowReg) : Statement (.tStrReg ro rb rd) := nofun
theorem tStrhReg (ro : LowReg) (rb : LowReg) (rd : LowReg) : Statement (.tStrhReg ro rb rd) := nofun
theorem tStrbReg (ro : LowReg) (rb : LowReg) (rd : LowReg) : Statement (.tStrbReg ro rb rd) := nofun
theorem tLdrsb (ro : LowReg) (rb : LowReg) (rd : LowReg) : Statement (.tLdrsb ro rb rd) := nofun
theorem tLdrReg (ro : LowReg) (rb : LowReg) (rd : LowReg) : Statement (.tLdrReg ro rb rd) := nofun
theorem tLdrhReg (ro : LowReg) (rb : LowReg) (rd : LowReg) : Statement (.tLdrhReg ro rb rd) := nofun
theorem tLdrbReg (ro : LowReg) (rb : LowReg) (rd : LowReg) : Statement (.tLdrbReg ro rb rd) := nofun
theorem tLdrsh (ro : LowReg) (rb : LowReg) (rd : LowReg) : Statement (.tLdrsh ro rb rd) := nofun
theorem tStrImm (imm5 : BitVec 5) (rb : LowReg) (rd : LowReg) : Statement (.tStrImm imm5 rb rd) := nofun
theorem tLdrImm (imm5 : BitVec 5) (rb : LowReg) (rd : LowReg) : Statement (.tLdrImm imm5 rb rd) := nofun
theorem tStrbImm (imm5 : BitVec 5) (rb : LowReg) (rd : LowReg) : Statement (.tStrbImm imm5 rb rd) := nofun
theorem tLdrbImm (imm5 : BitVec 5) (rb : LowReg) (rd : LowReg) : Statement (.tLdrbImm imm5 rb rd) := nofun
theorem tStrhImm (imm5 : BitVec 5) (rb : LowReg) (rd : LowReg) : Statement (.tStrhImm imm5 rb rd) := nofun
theorem tLdrhImm (imm5 : BitVec 5) (rb : LowReg) (rd : LowReg) : Statement (.tLdrhImm imm5 rb rd) := nofun
theorem tStrSp (rd : LowReg) (imm8 : BitVec 8) : Statement (.tStrSp rd imm8) := nofun
theorem tLdrSp (rd : LowReg) (imm8 : BitVec 8) : Statement (.tLdrSp rd imm8) := nofun
theorem tAddPc (rd : LowReg) (imm8 : BitVec 8) : Statement (.tAddPc rd imm8) := nofun
theorem tAddSp (rd : LowReg) (imm8 : BitVec 8) : Statement (.tAddSp rd imm8) := nofun
theorem tIncSp (imm7 : BitVec 7) : Statement (.tIncSp imm7) := nofun
theorem tDecSp (imm7 : BitVec 7) : Statement (.tDecSp imm7) := nofun
theorem tPush (r : Bool) (list : BitVec 8) : Statement (.tPush r list) := nofun
theorem tPop (r : Bool) (list : BitVec 8) : Statement (.tPop r list) := nofun
theorem tBkpt (imm8 : BitVec 8) : Statement (.tBkpt imm8) := nofun
theorem tUndef1011 (bits : BitVec 12) : Statement (.tUndef1011 bits) := nofun
theorem tStmia (rb : LowReg) (list : BitVec 8) : Statement (.tStmia rb list) := nofun
theorem tLdmia (rb : LowReg) (list : BitVec 8) : Statement (.tLdmia rb list) := nofun
theorem tUndefDE (imm8 : BitVec 8) : Statement (.tUndefDE imm8) := nofun
theorem tSwi (imm8 : BitVec 8) : Statement (.tSwi imm8) := nofun
theorem tBCond (c : Cond) (simm8 : BitVec 8) : Statement (.tBCond c simm8) := nofun
theorem tB (simm11 : BitVec 11) : Statement (.tB simm11) := nofun
theorem tBlxLow (offset10 : BitVec 10) : Statement (.tBlxLow offset10) := nofun
theorem tUndef11101 (bits : BitVec 10) : Statement (.tUndef11101 bits) := nofun
theorem tBlHigh (offset11 : BitVec 11) : Statement (.tBlHigh offset11) := nofun
theorem tBlLow (offset11 : BitVec 11) : Statement (.tBlLow offset11) := nofun

end Sys2Proof.Laws.ConditionField
end

