-- ==== Sys2Proof/Tests/Slice0.lean ====
section
/-! SUPPORT. Tests: ill-formed terms refused, one word for every row of the opcode table, single steps with results from
the spec, and for every statement with hypotheses a state and operands that meet them together. -/

set_option Elab.async false

namespace Sys2Proof.Tests

open Sys2Proof Sys2Proof.Machine

/-! Ill-formed terms: one for each check of WellFormed.lean. -/

/-- A `BLX` word, a `PLD` word and a coprocessor word are no unallocated unconditional words (R149). -/
theorem test_refuses_unallocUncond :
    WellFormed (.unallocUncond 0xA000000) = false ∧ WellFormed (.unallocUncond 0x5D3F000) = false ∧
    WellFormed (.unallocUncond 0xC100000) = false ∧ WellFormed (.unallocUncond 0xE000000) = false := by decide

/-- `MUL` and `SWP` are no unallocated words of their space (R139, R140). -/
theorem test_refuses_unallocMulSwp :
    WellFormed (.unallocMulSwp .al 0b00000 0 0) = false ∧ WellFormed (.unallocMulSwp .al 0b10000 0 0) = false := by decide

/-- `MRS`, `BX` and `CLZ` are no unallocated words of the miscellaneous space (R138). -/
theorem test_refuses_unallocMisc :
    WellFormed (.unallocMisc .al 0b00 0xF00 0b0000 0) = false ∧ WellFormed (.unallocMisc .al 0b01 0xFFF 0b0001 0) = false ∧
    WellFormed (.unallocMisc .al 0b11 0xF0F 0b0001 0) = false := by decide

/-- `PUSH` and `ADD SP` are no undefined halfwords (R168). -/
theorem test_refuses_tUndef1011 :
    WellFormed (.tUndef1011 0x400) = false ∧ WellFormed (.tUndef1011 0x07F) = false ∧
    WellFormed (.tUndef1011 0xEAB) = false := by decide

/-- P = 0 with W = 1 belongs to `LDRT` and its like (R292). -/
theorem test_refuses_mode2_index :
    WellFormed (.ldr .al true .postWriteback 1 2 (.imm 4)) = false ∧
    WellFormed (.ldrb .al true .postWriteback 1 2 (.imm 4)) = false ∧
    WellFormed (.str .al true .postWriteback 1 2 (.imm 4)) = false ∧
    WellFormed (.strb .al true .postWriteback 1 2 (.imm 4)) = false := by decide

/-- P = U = W = 0 is no form of `LDC` or `STC` (R146, R149). -/
theorem test_refuses_mode5 :
    WellFormed (.ldc .al false false true false 1 2 3 4) = false ∧ WellFormed (.stc .al false false false false 1 2 3 4) = false ∧
    WellFormed (.ldc2 false false true false 1 2 3 4) = false ∧ WellFormed (.stc2 false false false false 1 2 3 4) = false := by
  decide

/-- The no-operation word is no `MSR` (R141). -/
theorem test_refuses_msr_nop : WellFormed (.msrImm .al false 0 15 0 0) = false := by decide

/-- AL is no condition of a Thumb branch (R167). -/
theorem test_refuses_tBCond_al : WellFormed (.tBCond .al 0) = false := by decide

/-! Decoding: for every constructor one word, written out from the field layouts of 30_encoding.md. -/

/-- Unconditional words: R330, R273, R177, R408, R135, R376. -/
theorem test_decode_unconditional :
    decodeTableWord 32 0b1111_01_0_1_1_101_0101_1111_000000010100 = some (.pld false true 5 0x014) ∧
    decodeTableWord 32 0b1111_101_1_111111111111111111111110 = some (.blxImm true 0xFFFFFE) ∧
    decodeTableWord 32 0b1111_1100010000010010001101000101 = some (.unallocUncondCop true 0x012345) ∧
    decodeTableWord 32 0b1111_110_1_0_1_0_1_0011_0100_0101_01100111 = some (.ldc2 true false true false 3 4 5 0x67) ∧
    decodeTableWord 32 0b1111_110_0_1_0_1_0_0011_0100_0101_01100111 = some (.stc2 false true false true 3 4 5 0x67) ∧
    decodeTableWord 32 0b1111_1110_1001_0010_0011_0100_101_0_0110 = some (.cdp2 9 2 3 4 5 6) ∧
    decodeTableWord 32 0b1111_1110_101_0_0010_0011_0100_001_1_0110 = some (.mcr2 5 2 3 4 1 6) ∧
    decodeTableWord 32 0b1111_1110_101_1_0010_0011_0100_001_1_0110 = some (.mrc2 5 2 3 4 1 6) ∧
    decodeTableWord 32 0b1111_0000000100100011010001010110 = some (.unallocUncond 0x0123456) ∧
    decodeTableWord 32 0b1110_0011001000001111000000000000 = some .nop := by
  refine ⟨?_, ?_, ?_, ?_, ?_, ?_, ?_, ?_, ?_, ?_⟩ <;> rfl

/-- Multiplies and swaps: R139, R140, R177. -/
theorem test_decode_multiply :
    decodeTableWord 32 0b0001_0000000_1_0001_0000_0010_1001_0011 = some (.mul .ne true 1 0 2 3) ∧
    decodeTableWord 32 0b0010_0000001_0_0001_0010_0011_1001_0100 = some (.mla .cs false 1 2 3 4) ∧
    decodeTableWord 32 0b1110_0000100_1_0001_0010_0011_1001_0100 = some (.umull .al true 1 2 3 4) ∧
    decodeTableWord 32 0b0100_0000101_0_0001_0010_0011_1001_0100 = some (.umlal .mi false 1 2 3 4) ∧
    decodeTableWord 32 0b0101_0000110_1_0001_0010_0011_1001_0100 = some (.smull .pl true 1 2 3 4) ∧
    decodeTableWord 32 0b0110_0000111_0_0001_0010_0011_1001_0100 = some (.smlal .vs false 1 2 3 4) ∧
    decodeTableWord 32 0b1110_00010000_0001_0010_00001001_0011 = some (.swp .al 1 2 0 3) ∧
    decodeTableWord 32 0b1110_00010100_0001_0010_00001001_0011 = some (.swpb .al 1 2 0 3) ∧
    decodeTableWord 32 0b1110_0000011000010010001110010101 = some (.unallocMulSwp .al 0b00110 0x123 5) := by
  refine ⟨?_, ?_, ?_, ?_, ?_, ?_, ?_, ?_, ?_⟩ <;> rfl

/-- Halfword, signed and doubleword transfers: R140, R173, R293. -/
theorem test_decode_extra_load_store :
    decodeTableWord 32 0b1110_000_1_1_1_0_0_0001_0010_0011_1011_0100 = some (.strh .al true .offset 1 2 (.imm 0x34)) ∧
    decodeTableWord 32 0b1110_000_0_0_0_0_0_0001_0010_0000_1101_0100 = some (.ldrd .al false .postIndexed 1 2 (.reg 0 4)) ∧
    decodeTableWord 32 0b1110_000_1_0_1_1_0_0001_0010_0011_1111_0100 = some (.strd .al false .preIndexed 1 2 (.imm 0x34)) ∧
    decodeTableWord 32 0b1110_000_1_1_0_1_1_0001_0010_0000_1011_0100 = some (.ldrh .al true .preIndexed 1 2 (.reg 0 4)) ∧
    decodeTableWord 32 0b1110_000_0_1_1_0_1_0001_0010_0011_1101_0100 = some (.ldrsb .al true .postIndexed 1 2 (.imm 0x34)) ∧
    decodeTableWord 32 0b1110_000_1_0_0_0_1_0001_0010_0000_1111_0100 = some (.ldrsh .al false .offset 1 2 (.reg 0 4)) := by
  refine ⟨?_, ?_, ?_, ?_, ?_, ?_⟩ <;> rfl

/-- The miscellaneous space: R138, R141. -/
theorem test_decode_miscellaneous :
    decodeTableWord 32 0b1110_00010_1_001111_0010_000000000000 = some (.mrs .al true 15 2 0 0) ∧
    decodeTableWord 32 0b1110_00010_0_10_1001_111100000000_0011 = some (.msrReg .al false 9 15 0 3) ∧
    decodeTableWord 32 0b1110_000100101111111111110001_1110 = some (.bx .al 0xFFF 14) ∧
    decodeTableWord 32 0b1110_000100101111111111110011_0011 = some (.blxReg .al 0xFFF 3) ∧
    decodeTableWord 32 0b1110_000101101111_0001_11110001_0010 = some (.clz .al 15 1 15 2) ∧
    decodeTableWord 32 0b1110_00010000_0001_0010_00000101_0011 = some (.qadd .al 1 2 0 3) ∧
    decodeTableWord 32 0b1110_00010010_0001_0010_00000101_0011 = some (.qsub .al 1 2 0 3) ∧
    decodeTableWord 32 0b1110_00010100_0001_0010_00000101_0011 = some (.qdadd .al 1 2 0 3) ∧
    decodeTableWord 32 0b1110_00010110_0001_0010_00000101_0011 = some (.qdsub .al 1 2 0 3) ∧
    decodeTableWord 32 0b1110_00010010_000100100011_0111_0100 = some (.bkpt .al 0x123 4) ∧
    decodeTableWord 32 0b1110_00010000_0001_0010_0011_1_1_0_0_0100 = some (.smlaXY .al 1 2 3 true false 4) ∧
    decodeTableWord 32 0b1110_00010010_0001_0010_0011_1_1_00_0100 = some (.smlawY .al 1 2 3 true 4) ∧
    decodeTableWord 32 0b1110_00010010_0001_0000_0011_1_1_10_0100 = some (.smulwY .al 1 0 3 true 4) ∧
    decodeTableWord 32 0b1110_00010100_0001_0010_0011_1_0_1_0_0100 = some (.smlalXY .al 1 2 3 false true 4) ∧
    decodeTableWord 32 0b1110_00010110_0001_0000_0011_1_0_1_0_0100 = some (.smulXY .al 1 0 3 false true 4) ∧
    decodeTableWord 32 0b1110_0001011000010010001100100101 = some (.unallocMisc .al 0b11 0x123 0x2 5) ∧
    decodeTableWord 32 0b1110_00110_1_10_1000_1111_0100_11110000 = some (.msrImm .al true 8 15 4 0xF0) ∧
    decodeTableWord 32 0b1110_0011010000010010001101000101 = some (.unalloc00110 .al true 0x12345) := by
  refine ⟨?_, ?_, ?_, ?_, ?_, ?_, ?_, ?_, ?_, ?_, ?_, ?_, ?_, ?_, ?_, ?_, ?_, ?_⟩ <;> rfl

/-- Data processing, with all three forms of the second operand: R137, R151 to R153. -/
theorem test_decode_data_processing :
    decodeTableWord 32 0b0000_00_1_0000_0_0010_0011_010010100101 = some (.armAnd .eq false 2 3 (.imm 4 0xA5)) ∧
    decodeTableWord 32 0b0001_00_0_0001_1_0010_0011_001010100110 = some (.armEor .ne true 2 3 (.shiftImm 5 .lsr 6)) ∧
    decodeTableWord 32 0b0010_00_0_0010_0_0010_0011_011101010110 = some (.armSub .cs false 2 3 (.shiftReg 7 .asr 6)) ∧
    decodeTableWord 32 0b0011_00_0_0011_1_0010_0011_000001100110 = some (.armRsb .cc true 2 3 (.shiftImm 0 .ror 6)) ∧
    decodeTableWord 32 0b0100_00_1_0100_0_0010_0011_010010100101 = some (.armAdd .mi false 2 3 (.imm 4 0xA5)) ∧
    decodeTableWord 32 0b0101_00_0_0101_1_0010_0011_001010100110 = some (.armAdc .pl true 2 3 (.shiftImm 5 .lsr 6)) ∧
    decodeTableWord 32 0b0110_00_0_0110_0_0010_0011_011101010110 = some (.armSbc .vs false 2 3 (.shiftReg 7 .asr 6)) ∧
    decodeTableWord 32 0b0111_00_0_0111_1_0010_0011_000001100110 = some (.armRsc .vc true 2 3 (.shiftImm 0 .ror 6)) ∧
    decodeTableWord 32 0b1000_00_1_10001_0010_0000_010010100101 = some (.armTst .hi 2 0 (.imm 4 0xA5)) ∧
    decodeTableWord 32 0b1001_00_0_10011_0010_0000_001010100110 = some (.armTeq .ls 2 0 (.shiftImm 5 .lsr 6)) ∧
    decodeTableWord 32 0b1010_00_0_10101_0010_0000_011101010110 = some (.armCmp .ge 2 0 (.shiftReg 7 .asr 6)) ∧
    decodeTableWord 32 0b1011_00_0_10111_0010_0000_000001100110 = some (.armCmn .lt 2 0 (.shiftImm 0 .ror 6)) ∧
    decodeTableWord 32 0b1100_00_1_1100_0_0010_0011_010010100101 = some (.armOrr .gt false 2 3 (.imm 4 0xA5)) ∧
    decodeTableWord 32 0b1101_00_0_1101_1_0000_0011_001010100110 = some (.armMov .le true 0 3 (.shiftImm 5 .lsr 6)) ∧
    decodeTableWord 32 0b1110_00_0_1110_0_0010_0011_011101010110 = some (.armBic .al false 2 3 (.shiftReg 7 .asr 6)) ∧
    decodeTableWord 32 0b1110_00_0_1111_1_0000_0011_000001100110 = some (.armMvn .al true 0 3 (.shiftImm 0 .ror 6)) := by
  refine ⟨?_, ?_, ?_, ?_, ?_, ?_, ?_, ?_, ?_, ?_, ?_, ?_, ?_, ?_, ?_, ?_⟩ <;> rfl

/-- The undefined space and addressing mode 2: R142, R143, R171. -/
theorem test_decode_load_store :
    decodeTableWord 32 0b1110_0110101101001011010010111111 = some (.undefArm .al 0x5A5A5 15) ∧
    decodeTableWord 32 0b1110_01_0_0_1_011_0001_0010_000100100011 = some (.ldrt .al true 1 2 (.imm 0x123)) ∧
    decodeTableWord 32 0b1110_01_1_0_1_111_0001_0010_001011000110 = some (.ldrbt .al true 1 2 (.reg 5 .asr 6)) ∧
    decodeTableWord 32 0b1110_01_1_0_1_010_0001_0010_001011000110 = some (.strt .al true 1 2 (.reg 5 .asr 6)) ∧
    decodeTableWord 32 0b1110_01_0_0_1_110_0001_0010_000100100011 = some (.strbt .al true 1 2 (.imm 0x123)) ∧
    decodeTableWord 32 0b1110_01_0_1_0_0_0_1_0001_0010_000100100011 = some (.ldr .al false .offset 1 2 (.imm 0x123)) ∧
    decodeTableWord 32 0b1110_01_1_1_0_1_1_1_0001_0010_001011000110 = some (.ldrb .al false .preIndexed 1 2 (.reg 5 .asr 6)) ∧
    decodeTableWord 32 0b1110_01_1_0_0_0_0_0_0001_0010_001011000110 = some (.str .al false .postIndexed 1 2 (.reg 5 .asr 6)) ∧
    decodeTableWord 32 0b1110_01_0_1_0_1_1_0_0001_0010_000100100011 = some (.strb .al false .preIndexed 1 2 (.imm 0x123)) := by
  refine ⟨?_, ?_, ?_, ?_, ?_, ?_, ?_, ?_, ?_⟩ <;> rfl

/-- Load and store multiple, and branches: R144, R145. -/
theorem test_decode_block_and_branch :
    decodeTableWord 32 0b1110_100_0_1_0_1_1_0001_1000000100100100 = some (.ldm1 .al .ia true 1 0x8124) ∧
    decodeTableWord 32 0b1110_100_1_0_1_0_1_0001_0_100000100100100 = some (.ldm2 .al .db false 1 0x4124) ∧
    decodeTableWord 32 0b1110_100_1_1_1_1_1_1101_1000000000001111 = some (.ldm3 .al .ib true 13 0x000F) ∧
    decodeTableWord 32 0b1110_100_1_0_0_1_0_1101_0100000000110000 = some (.stm1 .al .db true 13 0x4030) ∧
    decodeTableWord 32 0b1110_100_0_0_1_0_0_0001_0110000000000000 = some (.stm2 .al .da false 1 0x6000) ∧
    decodeTableWord 32 0b1110_1010_111111111111111111111001 = some (.b .al 0xFFFFF9) ∧
    decodeTableWord 32 0b1011_1011_000100100011010001010110 = some (.bl .lt 0x123456) := by
  refine ⟨?_, ?_, ?_, ?_, ?_, ?_, ?_⟩ <;> rfl

/-- Coprocessor instructions and SWI: R146 to R148. -/
theorem test_decode_coprocessor :
    decodeTableWord 32 0b1110_11000100_0001_0010_0011_0100_0101 = some (.mcrr .al 1 2 3 4 5) ∧
    decodeTableWord 32 0b1110_11000101_0001_0010_0011_0100_0101 = some (.mrrc .al 1 2 3 4 5) ∧
    decodeTableWord 32 0b1110_1100000100010010001101000101 = some (.unallocCop .al 0x112345) ∧
    decodeTableWord 32 0b1110_110_1_1_0_1_1_0011_0100_0101_01100111 = some (.ldc .al true true false true 3 4 5 0x67) ∧
    decodeTableWord 32 0b1110_110_0_1_1_0_0_0011_0100_0101_01100111 = some (.stc .al false true true false 3 4 5 0x67) ∧
    decodeTableWord 32 0b1110_1110_1001_0010_0011_0100_101_0_0110 = some (.cdp .al 9 2 3 4 5 6) ∧
    decodeTableWord 32 0b1110_1110_101_0_0010_0011_0100_001_1_0110 = some (.mcr .al 5 2 3 4 1 6) ∧
    decodeTableWord 32 0b1110_1110_101_1_0010_0011_0100_001_1_0110 = some (.mrc .al 5 2 3 4 1 6) ∧
    decodeTableWord 32 0b1110_1111_000100100011010001010110 = some (.armSwi .al 0x123456) := by
  refine ⟨?_, ?_, ?_, ?_, ?_, ?_, ?_, ?_, ?_⟩ <;> rfl

/-- Thumb shifts, additions and immediates: R158, R159. -/
theorem test_decode_thumb_shift_and_immediate :
    decodeTableWord 16 0b00000_10011_010_101 = some (.tLslImm 19 2 5) ∧
    decodeTableWord 16 0b00001_10011_010_101 = some (.tLsrImm 19 2 5) ∧
    decodeTableWord 16 0b00010_10011_010_101 = some (.tAsrImm 19 2 5) ∧
    decodeTableWord 16 0b0001100_110_010_101 = some (.tAddReg 6 2 5) ∧
    decodeTableWord 16 0b0001101_110_010_101 = some (.tSubReg 6 2 5) ∧
    decodeTableWord 16 0b0001110_110_010_101 = some (.tAddImm3 6 2 5) ∧
    decodeTableWord 16 0b0001111_110_010_101 = some (.tSubImm3 6 2 5) ∧
    decodeTableWord 16 0b00100_101_10100011 = some (.tMovImm 5 0xA3) ∧
    decodeTableWord 16 0b00101_101_10100011 = some (.tCmpImm 5 0xA3) ∧
    decodeTableWord 16 0b00110_101_10100011 = some (.tAddImm8 5 0xA3) ∧
    decodeTableWord 16 0b00111_101_10100011 = some (.tSubImm8 5 0xA3) := by
  refine ⟨?_, ?_, ?_, ?_, ?_, ?_, ?_, ?_, ?_, ?_, ?_⟩ <;> rfl

/-- Thumb register operations and high registers: R160 to R162. -/
theorem test_decode_thumb_alu :
    decodeTableWord 16 0b0100000000_110_011 = some (.tAnd 6 3) ∧
    decodeTableWord 16 0b0100000001_110_011 = some (.tEor 6 3) ∧
    decodeTableWord 16 0b0100000010_110_011 = some (.tLslReg 6 3) ∧
    decodeTableWord 16 0b0100000011_110_011 = some (.tLsrReg 6 3) ∧
    decodeTableWord 16 0b0100000100_110_011 = some (.tAsrReg 6 3) ∧
    decodeTableWord 16 0b0100000101_110_011 = some (.tAdc 6 3) ∧
    decodeTableWord 16 0b0100000110_110_011 = some (.tSbc 6 3) ∧
    decodeTableWord 16 0b0100000111_110_011 = some (.tRor 6 3) ∧
    decodeTableWord 16 0b0100001000_110_011 = some (.tTst 6 3) ∧
    decodeTableWord 16 0b0100001001_110_011 = some (.tNeg 6 3) ∧
    decodeTableWord 16 0b0100001010_110_011 = some (.tCmpReg 6 3) ∧
    decodeTableWord 16 0b0100001011_110_011 = some (.tCmn 6 3) ∧
    decodeTableWord 16 0b0100001100_110_011 = some (.tOrr 6 3) ∧
    decodeTableWord 16 0b0100001101_110_011 = some (.tMul 6 3) ∧
    decodeTableWord 16 0b0100001110_110_011 = some (.tBic 6 3) ∧
    decodeTableWord 16 0b0100001111_110_011 = some (.tMvn 6 3) ∧
    decodeTableWord 16 0b01000100_1_0_110_011 = some (.tAddHigh true false 6 3) ∧
    decodeTableWord 16 0b01000101_1_0_110_011 = some (.tCmpHigh true false 6 3) ∧
    decodeTableWord 16 0b01000110_1_0_110_011 = some (.tMovHigh true false 6 3) ∧
    decodeTableWord 16 0b010001110_1_110_000 = some (.tBx 14 0) ∧
    decodeTableWord 16 0b010001111_1_110_000 = some (.tBlxReg 14 0) := by
  refine ⟨?_, ?_, ?_, ?_, ?_, ?_, ?_, ?_, ?_, ?_, ?_, ?_, ?_, ?_, ?_, ?_, ?_, ?_, ?_, ?_, ?_⟩ <;> rfl

/-- Thumb loads and stores: R163 to R165. -/
theorem test_decode_thumb_load_store :
    decodeTableWord 16 0b01001_101_10100011 = some (.tLdrPc 5 0xA3) ∧
    decodeTableWord 16 0b0101000_110_010_101 = some (.tStrReg 6 2 5) ∧
    decodeTableWord 16 0b0101001_110_010_101 = some (.tStrhReg 6 2 5) ∧
    decodeTableWord 16 0b0101010_110_010_101 = some (.tStrbReg 6 2 5) ∧
    decodeTableWord 16 0b0101011_110_010_101 = some (.tLdrsb 6 2 5) ∧
    decodeTableWord 16 0b0101100_110_010_101 = some (.tLdrReg 6 2 5) ∧
    decodeTableWord 16 0b0101101_110_010_101 = some (.tLdrhReg 6 2 5) ∧
    decodeTableWord 16 0b0101110_110_010_101 = some (.tLdrbReg 6 2 5) ∧
    decodeTableWord 16 0b0101111_110_010_101 = some (.tLdrsh 6 2 5) ∧
    decodeTableWord 16 0b01100_10011_010_101 = some (.tStrImm 19 2 5) ∧
    decodeTableWord 16 0b01101_10011_010_101 = some (.tLdrImm 19 2 5) ∧
    decodeTableWord 16 0b01110_10011_010_101 = some (.tStrbImm 19 2 5) ∧
    decodeTableWord 16 0b01111_10011_010_101 = some (.tLdrbImm 19 2 5) ∧
    decodeTableWord 16 0b10000_10011_010_101 = some (.tStrhImm 19 2 5) ∧
    decodeTableWord 16 0b10001_10011_010_101 = some (.tLdrhImm 19 2 5) ∧
    decodeTableWord 16 0b10010_101_10100011 = some (.tStrSp 5 0xA3) ∧
    decodeTableWord 16 0b10011_101_10100011 = some (.tLdrSp 5 0xA3) := by
  refine ⟨?_, ?_, ?_, ?_, ?_, ?_, ?_, ?_, ?_, ?_, ?_, ?_, ?_, ?_, ?_, ?_, ?_⟩ <;> rfl

/-- Thumb address, stack, multiple, branch and trap halfwords: R165 to R168. -/
theorem test_decode_thumb_miscellaneous :
    decodeTableWord 16 0b10100_101_10100011 = some (.tAddPc 5 0xA3) ∧
    decodeTableWord 16 0b10101_101_10100011 = some (.tAddSp 5 0xA3) ∧
    decodeTableWord 16 0b101100000_1010101 = some (.tIncSp 0x55) ∧
    decodeTableWord 16 0b101100001_1010101 = some (.tDecSp 0x55) ∧
    decodeTableWord 16 0b1011010_1_10100011 = some (.tPush true 0xA3) ∧
    decodeTableWord 16 0b1011110_1_10100011 = some (.tPop true 0xA3) ∧
    decodeTableWord 16 0b10111110_10100011 = some (.tBkpt 0xA3) ∧
    decodeTableWord 16 0b1011000100100011 = some (.tUndef1011 0x123) ∧
    decodeTableWord 16 0b11000_101_10100011 = some (.tStmia 5 0xA3) ∧
    decodeTableWord 16 0b11001_101_10100011 = some (.tLdmia 5 0xA3) ∧
    decodeTableWord 16 0b1101111010100011 = some (.tUndefDE 0xA3) ∧
    decodeTableWord 16 0b11011111_10100011 = some (.tSwi 0xA3) ∧
    decodeTableWord 16 0b1101_1011_11110000 = some (.tBCond .lt 0xF0) ∧
    decodeTableWord 16 0b11100_11111111110 = some (.tB 0x7FE) ∧
    decodeTableWord 16 0b1110101010101010 = some (.tBlxLow 0x155) ∧
    decodeTableWord 16 0b1110101010101011 = some (.tUndef11101 0x155) ∧
    decodeTableWord 16 0b11110_11110101011 = some (.tBlHigh 0x7AB) ∧
    decodeTableWord 16 0b11111_00100100011 = some (.tBlLow 0x123) := by
  refine ⟨?_, ?_, ?_, ?_, ?_, ?_, ?_, ?_, ?_, ?_, ?_, ?_, ?_, ?_, ?_, ?_, ?_, ?_⟩ <;> rfl


/-! Words the source itself prints (30_encoding.md R132). -/

theorem test_decode_printed :
    decodeTableWord 16 0x4700 = some (.tBx 0 0) ∧
    decodeTableWord 32 0xE1A00000 = some (.armMov .al false 0 0 (.shiftImm 0 .lsl 0)) ∧
    decodeTableWord 32 0xEAFFFFF9 = some (.b .al 0xFFFFF9) ∧ decodeTableWord 32 0xE320F000 = some .nop := by
  refine ⟨?_, ?_, ?_, ?_⟩ <;> rfl

/-! Small states. -/

/-- Reset with another pc and CPSR. -/
def at_ (pc cpsr : Word) : State := { State.reset with pc := pc, cpsr := cpsr, vectorEntered := none }

/-- Supervisor mode, ARM state, at 0x8000. -/
def svc : State := at_ 0x8000 0xD3

/-- User mode, ARM state, at 0x8000. -/
def usr : State := at_ 0x8000 0x10

/-- IRQ mode, ARM state, at 0x8000. -/
def irq : State := at_ 0x8000 0x92

/-- Supervisor mode, Thumb state, at 0x8000. -/
def tsvc : State := at_ 0x8000 0xF3

/-- A word of memory. -/
def poke (a : Nat) (v : Word) (s : State) : State :=
  { s with mem := memPutBytes s.mem a (laneBytes s.pins.bigEndian .word v) }

/-- The platform aborts data accesses from `lo` to `hi`. -/
def aborting (lo hi : Word) (s : State) : State :=
  { s with accessRules := [{ fetch := false, lo := lo, hi := hi, size := none, write := none, priv := none,
                             mode := none, locked := none, answer := .abort }] }

/-- The memory system ignores every write. -/
def ignoring (s : State) : State :=
  { s with accessRules := [{ fetch := false, lo := 0, hi := 0xFFFFFFFF, size := none, write := none, priv := none,
                             mode := none, locked := none, answer := .ignoreWrite }] }

/-- `DBGEN` HIGH, the comparators released, monitor mode or not. -/
def debugging (monitor : Bool) (s : State) : State :=
  { s with pins := { s.pins with dbgEn := true },
           dbg := { s.dbg with held := false, control := if monitor then 0b010000 else 0 } }

/-- Unit 0 matches every fetch, or every data access. -/
def watching (fetch : Bool) (s : State) : State :=
  { s with dbg := { s.dbg with wp0 :=
    { s.dbg.wp0 with addrMask := 0xFFFFFFFF, dataMask := 0xFFFFFFFF, ctlMask := 0b11110111,
                     ctlValue := if fetch then 0b100000000 else 0b100001000 } } }

/-- The platform aborts every fetch. -/
def abortingFetch (s : State) : State :=
  { s with accessRules := [{ fetch := true, lo := 0, hi := 0xFFFFFFFF, size := none, write := none, priv := none,
                             mode := none, locked := none, answer := .abort }] }

/-- A pin changed. -/
def pins (f : Pins → Pins) (s : State) : State := { s with pins := f s.pins }

/-- A property of the state that one instruction gives. -/
def after (i : Instr) (s : State) (p : State → Bool) : Bool :=
  match exec i s with
  | .next t => p t
  | _ => false

/-- A property of the state that one step gives. -/
def stepped (s : State) (p : State → Bool) : Bool :=
  match step s with
  | .next t => p t
  | _ => false

/-! Single steps. The expected values are those of spec/96_test_vectors_arm.md and 97_test_vectors_thumb_exceptions.md. -/

/-- 3.3: `SUBS` 0x80000000 - 1 sets C and V. -/
theorem test_subs : after (.armSub .al true 1 0 (.shiftImm 0 .lsl 2)) (setReg 2 1 (setReg 1 0x80000000 svc))
    (fun t => armReg t 0 == 0x7FFFFFFF && t.cpsr == 0x300000D3) = true := by decide

/-- 3.3: `SBCS` with C clear borrows. -/
theorem test_sbcs : after (.armSbc .al true 1 0 (.shiftImm 0 .lsl 2)) (setReg 2 5 (setReg 1 5 svc))
    (fun t => armReg t 0 == 0xFFFFFFFF && t.cpsr == 0x800000D3) = true := by decide

/-- 3.2: `MOVS` with LSL by 32. -/
theorem test_movs_lsl32 : after (.armMov .al true 0 0 (.shiftReg 2 .lsl 1)) (setReg 2 32 (setReg 1 0x80000001 svc))
    (fun t => armReg t 0 == 0 && t.cpsr == 0x600000D3) = true := by decide

/-- 3.3: `SUBS pc, r14, #4` in IRQ mode returns. -/
theorem test_subs_pc : after (.armSub .al true 14 15 (.imm 0 4)) { setReg 14 0x8010 irq with spsrIrq := 0x80000010 }
    (fun t => t.pc == 0x800C && t.cpsr == 0x80000010) = true := by decide

/-- 3.4: `SMLAL` of -1 and 1. -/
theorem test_smlal : after (.smlal .al false 5 4 2 1) (setReg 2 1 (setReg 1 0xFFFFFFFF svc))
    (fun t => armReg t 4 == 0xFFFFFFFF && armReg t 5 == 0xFFFFFFFF) = true := by decide

/-- 3.4: `QDADD` saturates twice. -/
theorem test_qdadd : after (.qdadd .al 2 0 0 1) (setReg 2 0x40000000 (setReg 1 0x80000000 svc))
    (fun t => armReg t 0 == 0xFFFFFFFF && t.cpsr == 0x080000D3) = true := by decide

/-- 3.4: `SMULWB`. -/
theorem test_smulw : after (.smulwY .al 0 0 2 false 1) (setReg 2 0x4000 (setReg 1 0x12345678 svc))
    (fun t => armReg t 0 == 0x048D159E) = true := by decide

/-- 3.5: `BLX` to a Thumb label with H set. -/
theorem test_blx : after (.blxImm true 0x3E) svc
    (fun t => t.pc == 0x8102 && armReg t 14 == 0x8004 && t.cpsr == 0xF3) = true := by decide

/-- 3.6: an unaligned `LDR` rotates. -/
theorem test_ldr_unaligned : after (.ldr .al true .offset 1 0 (.imm 0)) (setReg 1 0x1001 (poke 0x1000 0x44332211 svc))
    (fun t => armReg t 0 == 0x11443322) = true := by decide

/-- 3.7: `LDRH` big-endian, the same bytes. -/
theorem test_ldrh_big : after (.ldrh .al true .offset 1 0 (.imm 2))
    (setReg 1 0x1000 (poke 0x1000 0x11223344 (pins (fun p => { p with bigEndian := true }) svc)))
    (fun t => armReg t 0 == 0x3344) = true := by decide

/-- 3.6: `STRB` changes one byte. -/
theorem test_strb : after (.strb .al true .offset 1 0 (.imm 1))
    (setReg 0 0xAABBCCDD (setReg 1 0x1000 (poke 0x1000 0x44332211 svc)))
    (fun t => readMem t .word 0x1000 == 0x4433DD11) = true := by decide

/-- 3.8: `LDMDB` with write-back. -/
theorem test_ldmdb : after (.ldm1 .al .db true 0 0x000E) (setReg 0 0x1008 (poke 0x1004 0xA1 (poke 0x1000 0xA0 svc)))
    (fun t => armReg t 1 == 0 && armReg t 2 == 0xA0 && armReg t 3 == 0xA1 && armReg t 0 == 0x0FFC) = true := by decide

/-- 3.8: `STM` of the User bank in IRQ mode. -/
theorem test_stm_user : after (.stm2 .al .ia false 0 0x6000)
    (setReg 0 0x1000 (setRegAt modeUser 14 0x222 (setRegAt modeUser 13 0x111 (setReg 13 0x333 irq))))
    (fun t => readMem t .word 0x1000 == 0x111 && readMem t .word 0x1004 == 0x222) = true := by decide

/-- 3.8: `SWP` of a register with itself. -/
theorem test_swp : after (.swp .al 1 0 0 0) (setReg 0 0x77 (setReg 1 0x1000 (poke 0x1000 0x44332211 svc)))
    (fun t => armReg t 0 == 0x44332211 && readMem t .word 0x1000 == 0x77) = true := by decide

/-- 3.9: `MSR` in User mode writes the flags byte only. -/
theorem test_msr_user : after (.msrReg .al false 9 15 0 0) (setReg 0 0xF00000D3 usr) (fun t => t.cpsr == 0xF0000010) = true := by
  decide

/-- 3.10: `MRC` from the comms control register, to the flags. -/
theorem test_mrc14 : after (.mrc .al 0 0 15 14 0 0) { svc with dbg := { svc.dbg with commsR := true } }
    (fun t => t.cpsr == 0x500000D3 && t.pc == 0x8004) = true := by decide

/-- 3.10: no coprocessor 15. -/
theorem test_mrc15 : after (.mrc .al 0 0 0 15 0 0) svc
    (fun t => regAt t modeUnd 14 == 0x8004 && t.spsrUnd == 0xD3 && t.cpsr == 0xDB && t.pc == 4) = true := by decide

/-- 3.11: `NEG` of the most negative number. -/
theorem test_neg : after (.tNeg 1 0) (setReg 1 0x80000000 tsvc)
    (fun t => armReg t 0 == 0x80000000 && t.cpsr == 0x900000F3) = true := by decide

/-- 3.12: `POP` to the pc leaves Thumb state. -/
theorem test_pop_pc : after (.tPop true 0) (setReg 13 0x1000 (poke 0x1000 0x9000 tsvc))
    (fun t => t.pc == 0x9000 && t.cpsr == 0xD3 && regAt t modeSvc 13 == 0x1004) = true := by decide

/-- 3.13: `BLX` to a register from Thumb state. -/
theorem test_tblx : after (.tBlxReg 1 0) (setReg 1 0x9000 tsvc)
    (fun t => t.pc == 0x9000 && regAt t modeSvc 14 == 0x8003 && t.cpsr == 0xD3) = true := by decide

/-- 3.14: an FIQ before an IRQ. -/
theorem test_fiq_first : stepped { usr with lines := { usr.lines with nFIQ := false, nIRQ := false } }
    (fun t => regAt t modeFiq 14 == 0x8004 && t.spsrFiq == 0x10 && t.cpsr == 0xD1 && t.pc == 0x1C) = true := by decide

/-- 3.15: an aborted `LDR` writes neither its destination nor its base. -/
theorem test_ldr_abort : after (.ldr .al true .postIndexed 1 0 (.imm 4))
    (aborting 0x2000 0x2FFF (setReg 0 0x77 (setReg 1 0x2000 (at_ 0x8000 0x60000010))))
    (fun t => armReg t 0 == 0x77 && armReg t 1 == 0x2000 && regAt t modeAbt 14 == 0x8008 && t.spsrAbt == 0x60000010 &&
      t.cpsr == 0x60000097 && t.pc == 0x10) = true := by decide

/-- 3.15: an aborted `STM` keeps what it stored. -/
theorem test_stm_abort : after (.stm1 .al .ia true 0 0x000E)
    (aborting 0x2000 0x2FFF (setReg 0 0x1FF8 (setReg 1 1 (setReg 2 2 (setReg 3 3 (at_ 0x8000 0x60000010))))))
    (fun t => readMem t .word 0x1FF8 == 1 && readMem t .word 0x1FFC == 2 && readMem t .word 0x2000 == 0 &&
      armReg t 0 == 0x1FF8 && t.pc == 0x10) = true := by decide

/-- An ignored store leaves memory and writes its base (20_memory.md R112). -/
theorem test_str_ignored : after (.str .al true .postIndexed 1 0 (.imm 4))
    (ignoring (setReg 0 0x55 (setReg 1 0x1000 (poke 0x1000 0x44332211 svc))))
    (fun t => readMem t .word 0x1000 == 0x44332211 && armReg t 1 == 0x1004 && t.pc == 0x8004) = true := by decide

/-- 3.8: `LDM` of the User bank in User mode is refused. -/
theorem test_ldm_user : exec (.ldm2 .al .ia false 0 0x0002) (setReg 0 0x1000 usr) = .refused .blockTransferForm := rfl

/-- A coprocessor that waits for ever: the PC stays (46_arm_coprocessor.md R394). -/
theorem test_wait : after (.cdp .al 0 0 0 1 0 0) { svc with cops := [{ num := 1, answers := [], rest := .wait, received := [] }] }
    (fun t => t.pc == 0x8000 && t.cops == [{ num := 1, answers := [], rest := .wait, received := [] }]) = true := by decide

/-- Scan chain 2 reads the debug control register, and writing unit 1's control value clears the CHAINOUT latch (10_state.md
R66, R71). -/
theorem test_scan2 :
    fld 0 6 (scan2 0 svc).dbg.chain2 = 0b010000#6 ∧
    (scan2 (0b110100#6 ++ (0x108 : Word)) { svc with chainOut := true }).chainOut = false ∧
    (scan2 (0b110100#6 ++ (0x108 : Word)) svc).dbg.wp1.ctlValue = 0x108#9 := by decide

/-- Unit 1 watches fetches of every address with the data masked: the CHAINOUT latch is set by the fetch of the instruction
that executes (10_state.md R71). -/
def chaining : State :=
  let d := (debugging true svc).dbg
  { debugging true svc with dbg := { d with wp1 := { d.wp1 with
      addrMask := 0xFFFFFFFF, dataMask := 0xFFFFFFFF, ctlMask := 0b11110111 } } }

theorem test_chain_out : chaining.chainOut = false ∧ (fetched chaining).chainOut = true := by
  have h : ∀ r c, chaining.dbg.wp1.selects r c false (fetchAccess chaining) = true := by decide
  exact ⟨rfl, fetched_masked rfl (h _ _) fun _ => rfl⟩

/-- A byte of a split instruction memory changes between two instructions (20_memory.md R81). -/
theorem test_instruction_byte : stepped
    { pins (fun p => { p with unifiedMemory := false }) svc with inputs := [[.instructionByte 0x9000 0x10]] }
    (fun t => memGet t.imem 0x9000 == 0x10 && memGet t.mem 0x9000 == 0) = true := by decide

/-- P1: the first instruction of a loaded program. -/
theorem test_step_mov : stepped (svc.withFetchWord 32 0xE3A01A01) (fun t => armReg t 1 == 0x1000 && t.pc == 0x8004) = true := by
  decide

/-! Witnesses: for every statement with hypotheses, states and operands that meet them together, with one for each clause
and, where a clause has a range, at its ends. -/

/-- The instruction or step answers a next state. -/
def answers (r : Result) : Bool :=
  match r with
  | .next _ => true
  | _ => false

theorem witness_ArmDecodeInvertsEncode :
    (Instr.mul .al true 1 0 2 3).isThumb = false ∧ WellFormed (.mul .al true 1 0 2 3) = true := by decide

theorem witness_ThumbDecodeInvertsEncode :
    (Instr.tBCond .le 0x80).isThumb = true ∧ WellFormed (.tBCond .le 0x80) = true := by decide

theorem witness_StepKeepsInvariant_inv : Inv tsvc where
  mem := by decide
  imem := by decide
  pc := by
    unfold PcAligned
    decide
  mask0 := by decide
  mask1 := by decide
  ports := by decide

theorem witness_StepKeepsInvariant_next : answers (step tsvc) = true := by decide

/-- A reset in a state whose instruction completes, and in one that only stops. -/
theorem witness_ResetEntersSupervisorAtTheVector :
    answers (boundary svc) = true ∧ Memory.wf svc.mem = true ∧ boundary (at_ 0 0) = .fault .unrecoverableMode := by
  refine ⟨?_, rfl, rfl⟩
  decide

/-- `MUL r0, r1, r2` at the PC. -/
def mulAtPc : State := poke 0x8000 0xE0000291 svc

/-- `MOV r0, r13` at the PC, after a User-bank transfer. -/
def movAtPc : State := { poke 0x8000 0xE1A0000D svc with userBankHazard := true }

theorem witness_StepRunsTheDecodedInstruction :
    takeInputs mulAtPc = .next { mulAtPc with tick := 1 } ∧ legalMode (mode mulAtPc) = true ∧ mulAtPc.pcWrapped = false ∧
    mulAtPc.pins.dbgEn = false ∧ psrF mulAtPc.cpsr = true ∧ psrI mulAtPc.cpsr = true ∧
    fetchAnswer { mulAtPc with tick := 1 } = .ok ∧ staleInstr { mulAtPc with tick := 1 } = false ∧
    mulAtPc.userBankHazard = false ∧
    decode (codeOfBytes (thumb mulAtPc) false (memGetBytes (fetchMem mulAtPc) mulAtPc.pc.toNat 4)) =
      .mul .al false 0 0 2 1 := by
  refine ⟨rfl, ?_, rfl, rfl, ?_, ?_, ?_, ?_, rfl, rfl⟩ <;> decide

theorem witness_StepRunsTheDecodedInstruction_hazard :
    takeInputs movAtPc = .next { movAtPc with tick := 1 } ∧ legalMode (mode movAtPc) = true ∧
    movAtPc.lines.nFIQ = true ∧ movAtPc.lines.nIRQ = true ∧ fetchAnswer { movAtPc with tick := 1 } = .ok ∧
    staleInstr { movAtPc with tick := 1 } = false ∧ movAtPc.userBankHazard = true ∧
    touchesBanked { movAtPc with tick := 1 } (.armMov .al false 0 0 (.shiftImm 0 .lsl 13)) = true := by
  refine ⟨rfl, ?_, rfl, rfl, ?_, ?_, rfl, ?_⟩ <;> decide

/-- `MOV r0, r1` names no banked register. -/
theorem witness_StepRunsTheDecodedInstruction_plain :
    touchesBanked movAtPc (.armMov .al false 0 0 (.shiftImm 0 .lsl 1)) = false ∧
    touchesBanked movAtPc (.cdp .al 0 0 0 1 0 0) = false := by decide

/-- The ends of r8 to r14, an SPSR, a list and a link register; r7, r15 and a failed condition are none of them. -/
theorem witness_StepRunsTheDecodedInstruction_named :
    (∀ i ∈ [Instr.mul .al false 8 0 2 1, .mrs .al false 15 14 0 0, .mrs .al true 15 0 0 0, .stm1 .al .ia false 0 0x0100,
      .blxImm false 0, .tPop false 0, .armMov .al true 0 15 (.imm 0 0)], touchesBanked svc i = true) ∧
    (∀ i ∈ [Instr.mul .al false 7 0 2 1, .mrs .al false 15 0 0 0, .ldm1 .al .ia false 0 0x80FF, .b .al 0,
      .armMov .al false 0 15 (.imm 0 0), .mul .eq false 8 0 2 1, .tLdmia 7 0xFF], touchesBanked svc i = false) := by decide

/-- `MUL` at the PC in User mode with a pending FIQ that INTDIS inhibits. -/
def inhibited : State :=
  { poke 0x8000 0xE0000291 usr with
    lines := { usr.lines with nFIQ := false }, pins := { usr.pins with dbgEn := true },
    dbg := { usr.dbg with control := 0b010100 } }

theorem witness_StepRunsTheDecodedInstruction_inhibited :
    inhibited.pins.dbgEn = true ∧ inhibited.lines.edbgrq = false ∧ inhibited.dbg.request = false ∧
    inhibited.dbg.intDis = true ∧ psrF inhibited.cpsr = false ∧ fetchAnswer inhibited = .ok := by decide

/-- `nIRQ` asserted. -/
def irqLow (s : State) : State := { s with lines := { s.lines with nIRQ := false } }

/-- `nFIQ` asserted. -/
def fiqLow (s : State) : State := { s with lines := { s.lines with nFIQ := false } }

theorem witness_BoundaryTakesInterruptsAndPrefetchAborts :
    (takeInputs (at_ 0 0) = .next { at_ 0 0 with tick := 1 } ∧ legalMode (mode (at_ 0 0)) = false) ∧
    (takeInputs (fiqLow usr) = .next { fiqLow usr with tick := 1 } ∧ legalMode (mode (fiqLow usr)) = true ∧
      (fiqLow usr).pcWrapped = false ∧ (fiqLow usr).pins.dbgEn = false ∧ (fiqLow usr).lines.nFIQ = false ∧
      psrF (fiqLow usr).cpsr = false) ∧
    ((irqLow usr).lines.nFIQ = true ∧ (irqLow usr).lines.nIRQ = false ∧ psrI (irqLow usr).cpsr = false) ∧
    ((fiqLow (irqLow (at_ 0x8000 0x50))).lines.nFIQ = false ∧ psrF (fiqLow (irqLow (at_ 0x8000 0x50))).cpsr = true ∧
      psrI (fiqLow (irqLow (at_ 0x8000 0x50))).cpsr = false) ∧
    (takeInputs (abortingFetch usr) = .next { abortingFetch usr with tick := 1 } ∧
      (abortingFetch usr).lines.nIRQ = true ∧
      platformAborts (abortingFetch usr) (fetchAccess (abortingFetch usr)) = true) := by
  refine ⟨⟨rfl, ?_⟩, ⟨rfl, ?_, rfl, rfl, rfl, ?_⟩, ⟨rfl, rfl, ?_⟩, ⟨rfl, ?_, ?_⟩, rfl, rfl, ?_⟩ <;> decide

theorem witness_BoundaryTakesInterruptsAndPrefetchAborts_stops :
    (takeInputs { usr with pcWrapped := true } = .next { usr with pcWrapped := true, tick := 1 }) ∧
    ((debugging true { usr with lines := { usr.lines with edbgrq := true } }).lines.edbgrq = true ∧
      (debugging true usr).pins.dbgEn = true) ∧
    (platformAborts (watching true (debugging true usr)) (fetchAccess (watching true (debugging true usr))) = false ∧
      debugMatch (watching true (debugging true usr)) (fetchAccess (watching true (debugging true usr)))
        (instrBus (watching true (debugging true usr))) = .hit ∧
      (watching true (debugging true usr)).dbg.monitorMode = true ∧
      (watching true (debugging false usr)).dbg.monitorMode = false) ∧
    vectorCaught (debugging true
      { usr with vectorEntered := some .swi, dbg := { usr.dbg with vectorCatch := 0b100 } }) = true ∧
    debugMatch (debugging true { usr with accessRules := (abortingFetch usr).accessRules.map fun r =>
      { r with answer := .debugInput } }) (fetchAccess usr) 0 = .unsupported ∧
    staleInstr { usr with stale := [0x8000] } = true := by
  refine ⟨rfl, ?_, ?_, ?_, ?_, ?_⟩ <;> decide

/-- An advance to the last instruction and past it; stores at both ends of the fetched instructions and beyond each end. -/
theorem witness_BoundaryTakesInterruptsAndPrefetchAborts_marks :
    (advance 4 (at_ 0xFFFFFFF8 0xD3)).pcWrapped = false ∧ (advance 4 (at_ 0xFFFFFFFC 0xD3)).pcWrapped = true ∧
    (advance 4 (at_ 0xFFFFFFFC 0xD3)).pc = 0 ∧ svc.pins.unifiedMemory = true ∧
    0x8004 ∈ (writeMem .word 0x8004 1 svc).stale ∧ 0x8010 ∈ (writeMem .word 0x8010 1 svc).stale ∧
    0x8000 ∉ (writeMem .word 0x8000 1 svc).stale ∧ 0x8014 ∉ (writeMem .word 0x8014 1 svc).stale ∧
    0x8004 ∉ (writeMem .word 0x8004 0 svc).stale ∧ 0x8008 ∈ (writeMem .half 0x8008 1 tsvc).stale ∧
    0x800A ∉ (writeMem .half 0x800A 1 tsvc).stale ∧ 0x8000 ∈ (changeByte 0x8000 1 svc).stale ∧
    0x8014 ∉ (changeByte 0x8014 1 svc).stale := by
  refine ⟨rfl, rfl, rfl, rfl, ?_, ?_, ?_, ?_, ?_, ?_, ?_, ?_, ?_⟩ <;> decide

theorem witness_ExceptionEntrySavesAndVectors :
    Exception.fiq ≠ .reset ∧ Exception.undefined ≠ .reset ∧ 8 ≤ 31 ∧ 31 < 32 := by decide

/-- Registers of one copy and of two, at the ends of each row of the table of R34. -/
theorem witness_ExceptionEntrySavesAndVectors_banks :
    legalMode modeUser = true ∧ legalMode modeFiq = true ∧ legalMode modeSvc = true ∧ legalMode modeSys = true ∧
    (∀ n ∈ [(0 : Reg), 7, 8, 12, 13, 14], n ≠ 15) ∧
    bankIndex modeUser 7 = bankIndex modeFiq 7 ∧ bankIndex modeUser 8 ≠ bankIndex modeFiq 8 ∧
    bankIndex modeUser 12 = bankIndex modeSvc 12 ∧ bankIndex modeUser 13 ≠ bankIndex modeSvc 13 ∧
    bankIndex modeUser 14 = bankIndex modeSys 14 := by decide

theorem witness_SwiAndUndefinedSpacesTakeTheirExceptions :
    condPassed .al usr.cpsr = true ∧ condPassed .ne usr.cpsr = true := by decide

theorem witness_BkptIsAPrefetchAbort :
    svc.pins.dbgEn = false ∧
    (pins (fun p => { p with dbgEn := true }) svc).dbg.monitorMode = true ∧
    ({ pins (fun p => { p with dbgEn := true }) svc with dbg := { svc.dbg with control := 0 } }).dbg.monitorMode = false ∧
    (Cond.ne ≠ .al ∧ condPassed .ne svc.cpsr = true) := by decide

theorem witness_UnallocatedWordsAreRefused :
    Instr.unallocCop .ne 0 ∈ [Instr.unallocMulSwp .ne 2 0 0, .unallocMisc .ne 0 0 2 0, .unalloc00110 .ne false 0,
      .unallocCop .ne 0] ∧
    condPassed .ne svc.cpsr = true ∧ condPassed .eq svc.cpsr = false := by decide

theorem witness_FailedConditionOnlyAdvances :
    condPassed (condOf (.armSwi .eq 0)) svc.cpsr = false ∧ condPassed (condOf (.tBCond .eq 0)) tsvc.cpsr = false := by decide

/-- A condition field, the field 1111, and a Thumb instruction. -/
theorem witness_FailedConditionOnlyAdvances_field :
    ((Instr.armSwi .le 0).isThumb = false ∧ fld 28 4 (encodeArm (.armSwi .le 0)) = 0b1101#4) ∧
    ((Instr.blxImm true 0).isThumb = false ∧ fld 28 4 (encodeArm (.blxImm true 0)) = 0b1111#4) ∧
    (Instr.tBCond .le 0).isThumb = true ∧ (Instr.tB 0).isThumb = true := by decide

theorem witness_LogicalInstructionsWriteResultAndFlags :
    condPassed .al svc.cpsr = true ∧ (14 : Reg) ≠ 15 ∧ operand2Allowed [1, 14] (.shiftReg 2 .lsl 4) = true ∧
    operand2Allowed [14] (.shiftReg 2 .ror 14) = true ∧ operand2Allowed [15, 0] (.imm 15 255) = true ∧
    operand2Allowed [15, 0] (.shiftReg 2 .lsl 4) = false := by decide

theorem witness_ArithmeticInstructionsWriteResultAndFlags :
    condPassed .al svc.cpsr = true ∧ (0 : Reg) ≠ 15 ∧ operand2Allowed [1, 0] (.shiftReg 2 .asr 4) = true ∧
    operand2Allowed [15, 0] (.shiftImm 0 .ror 15) = true := by decide

theorem witness_CompareInstructionsWriteOnlyFlags :
    condPassed .al svc.cpsr = true ∧ operand2Allowed [1] (.shiftReg 2 .asr 4) = true ∧
    operand2Allowed [15] (.imm 0 0) = true := by decide

/-- Supervisor mode with an SPSR. -/
def withSpsr (q : Word) : State := { svc with spsrSvc := q }

/-- ADD r15, r1, #n: the sums that each clause of the statement speaks of. -/
theorem witness_DataProcessingWritesToThePc :
    condPassed .al svc.cpsr = true ∧ operand2Allowed [1, 15] (.imm 0 4) = true ∧
    fld 0 2 (armReg (setReg 1 0x9000 svc) 1 + (operand2 svc (.imm 0 4)).value) = 0#2 ∧
    fld 0 2 (armReg (setReg 1 0x9000 svc) 1 + (operand2 svc (.imm 0 1)).value) ≠ 0#2 ∧
    fld 0 2 (armReg (setReg 1 0x9000 svc) 1 + (operand2 svc (.imm 0 3)).value) ≠ 0#2 ∧
    (spsr (withSpsr 0x60000030) = some 0x60000030 ∧ flag 5 (0x60000030 : Word) = true) ∧
    (spsr (withSpsr 0x10) = some 0x10 ∧ flag 5 (0x10 : Word) = false) ∧
    mode usr = modeUser ∧ mode (at_ 0 0x1F) = modeSys := by decide

theorem witness_CarryOverflowAndFlagBits : 31 < 32 ∧ 0 < 32 := by decide

theorem witness_ShifterOperand :
    31 < 32 ∧ (0 : Byte).toNat = 0 ∧ 0 < (1 : Byte).toNat ∧ 0 < (32 : Byte).toNat ∧ 0 < (33 : Byte).toNat ∧
    0 < (255 : Byte).toNat := by decide

theorem witness_ClzCountsLeadingZeros :
    condPassed .al svc.cpsr = true ∧ (0 : Reg) ≠ 15 ∧ (1 : Reg) ≠ 15 ∧ armReg svc 1 = 0 ∧
    (0 < 32 ∧ flag 0 (armReg (setReg 1 1 svc) 1) = true) ∧
    (31 < 32 ∧ flag 31 (armReg (setReg 1 0x80000001 svc) 1) = true) := by decide

theorem witness_ClzCountsLeadingZeros_above :
    (∀ j, 0 < j → flag j (armReg (setReg 1 1 svc) 1) = false) ∧
    (∀ j, 31 < j → flag j (armReg (setReg 1 0x80000001 svc) 1) = false) := by
  have e : armReg (setReg 1 1 svc) 1 = 1 := by decide
  refine ⟨fun j hj => ?_, fun j hj => BitVec.getLsbD_of_ge _ _ hj⟩
  rw [e]
  by_cases h : j < 32
  · have : ∀ k, k < 32 → 0 < k → flag k (1 : Word) = false := by decide
    exact this j h hj
  · exact BitVec.getLsbD_of_ge _ _ (by omega)

/-- `Rd` 0, `Rn` 1, `Rs` 2, `Rm` 14. -/
theorem witness_MultipliesWriteTheProduct :
    condPassed .al svc.cpsr = true ∧ anyPc [0, 1, 2, 14] = false ∧ (0 : Reg) ≠ 14 ∧ (1 : Reg) ≠ 0 ∧ (1 : Reg) ≠ 14 := by
  decide

theorem witness_LongMultipliesAccumulateInThePair :
    condPassed .al svc.cpsr = true ∧ anyPc [0, 1, 2, 14] = false ∧ (0 : Reg) ≠ 1 ∧ (0 : Reg) ≠ 14 ∧ (1 : Reg) ≠ 14 := by
  decide

theorem witness_SaturatingInstructionsClampAndSetQ :
    condPassed .al svc.cpsr = true ∧ (0 : Reg) ≠ 15 ∧ (14 : Reg) ≠ 15 := by decide

theorem witness_HalfwordMultipliesAndTheirSums :
    condPassed .al svc.cpsr = true ∧ anyPc [0, 0, 14, 14] = false := by decide

theorem witness_ArmBranchesToALabel : condPassed .al svc.cpsr = true ∧ condPassed .pl svc.cpsr = true := by decide

theorem witness_RegisterBranchesExchangeState :
    condPassed .al svc.cpsr = true ∧ (14 : Reg) ≠ 15 ∧
    fld 0 2 (armReg (setReg 14 0x9000 svc) 14) ≠ 0b10#2 ∧ fld 0 2 (armReg (setReg 14 0x9001 svc) 14) ≠ 0b10#2 ∧
    fld 0 2 (armReg (setReg 14 0x9003 svc) 14) ≠ 0b10#2 ∧ fld 0 2 (armReg (setReg 14 0x9002 svc) 14) = 0b10#2 ∧
    fld 0 2 (thumbReg (setReg 14 0x9001 tsvc) 14) ≠ 0b10#2 ∧ fld 0 2 (thumbReg (at_ 0x8002 0xF3) 15) = 0b10#2 := by decide

/-- r1 at 0x1000, where memory holds a word. -/
def mem1 : State := setReg 1 0x1000 (poke 0x1004 0x88776655 (poke 0x1000 0x44332211 svc))

theorem witness_WordAndByteLoads :
    condPassed .al mem1.cpsr = true ∧
    (∀ idx ∈ [Index.offset, .preIndexed, .postIndexed], loadStoreAllowed idx 1 0 (offset2Reg (.imm 4)) false = true ∧
      dataAnswer mem1 (dataAccess mem1 false .word false false (singleAddr mem1 idx true 1 (offset2 mem1 (.imm 4)))) 0 = .ok ∧
      dataAnswer mem1 (dataAccess mem1 false .byte false false (singleAddr mem1 idx true 1 (offset2 mem1 (.imm 4)))) 0 = .ok) ∧
    loadStoreAllowed .offset 15 14 (offset2Reg (.reg 0 .lsl 14)) false = true ∧
    dataAnswer mem1 (dataAccess mem1 true .word false false 0x1000) 0 = .ok ∧
    dataAnswer mem1 (dataAccess mem1 true .byte false false 0xFFFFFFFF) 0 = .ok := by decide

/-- `LDR` to r15 from 0x1000, at each form of the word there. -/
theorem witness_LoadToThePc :
    condPassed .al mem1.cpsr = true ∧ thumb mem1 = false ∧ loadStoreAllowed .preIndexed 1 15 (offset2Reg (.imm 0)) true = true ∧
    fld 0 2 (singleAddr mem1 .offset true 1 1) ≠ 0#2 ∧ fld 0 2 (singleAddr mem1 .offset true 1 3) ≠ 0#2 ∧
    fld 0 2 (singleAddr mem1 .preIndexed true 1 0) = 0#2 ∧
    dataAnswer mem1 (dataAccess mem1 false .word false false 0x1000) 0 = .ok ∧
    (mem1.pins.disLTBit = false ∧ fld 0 2 (readMem mem1 .word 0x1000) ≠ 0b10#2) ∧
    fld 0 2 (readMem (poke 0x1000 0x9000 mem1) .word 0x1000) ≠ 0b10#2 ∧
    fld 0 2 (readMem (poke 0x1000 0x9003 mem1) .word 0x1000) ≠ 0b10#2 ∧
    fld 0 2 (readMem (poke 0x1000 0x9002 mem1) .word 0x1000) = 0b10#2 ∧
    ((pins (fun p => { p with disLTBit := true }) mem1).pins.disLTBit = true ∧
      dataAnswer (pins (fun p => { p with disLTBit := true }) mem1) (dataAccess mem1 false .word false false 0x1000) 0 = .ok) := by
  decide

theorem witness_WordAndByteStores :
    condPassed .al mem1.cpsr = true ∧ Memory.wf mem1.mem = true ∧
    (∀ idx ∈ [Index.offset, .preIndexed, .postIndexed], loadStoreAllowed idx 1 0 (offset2Reg (.imm 4)) false = true ∧
      loadStoreAllowed idx 1 15 (offset2Reg (.imm 4)) true = true ∧
      dataAnswer mem1 (dataAccess mem1 false .word true false (singleAddr mem1 idx true 1 (offset2 mem1 (.imm 4))))
        (armReg mem1 0) = .ok ∧
      dataAnswer mem1 (dataAccess mem1 false .byte true false (singleAddr mem1 idx true 1 (offset2 mem1 (.imm 4))))
        (armReg mem1 0) = .ok) ∧
    dataAnswer mem1 (dataAccess mem1 true .word true false 0x1000) (armReg mem1 0) = .ok ∧
    dataAnswer mem1 (dataAccess mem1 true .byte true false 0xFFFFFFFF) (armReg mem1 0) = .ok := by decide

theorem witness_WordAndByteStores_ignored :
    dataAnswer (ignoring mem1) (dataAccess mem1 false .word true false 0x1000) (armReg mem1 0) = .ignored ∧
    dataAnswer (ignoring mem1) (dataAccess mem1 false .half true false 0x1000) (armReg mem1 0) = .ignored ∧
    dataAnswer (ignoring mem1) (dataAccess mem1 true .byte true false 0x1000) (armReg mem1 0) = .ignored := by decide

/-- A store of r15, whose value is the implementation's. -/
theorem witness_WordAndByteStores_pc (v : Word) :
    dataAnswer mem1 (dataAccess mem1 false .word true false 0x1000) v = .ok := rfl

theorem witness_HalfwordAndSignedTransfers :
    condPassed .al mem1.cpsr = true ∧ offset3Sbz (.reg 0 2) = true ∧
    loadStoreAllowed .postIndexed 1 0 (offset3Reg (.reg 0 2)) false = true ∧
    dataAnswer mem1 (dataAccess mem1 false .byte false false (singleAddr mem1 .offset true 1 3)) 0 = .ok ∧
    (flag 0 (singleAddr mem1 .offset true 1 2) = false ∧
      dataAnswer mem1 (dataAccess mem1 false .half false false (singleAddr mem1 .offset true 1 2)) 0 = .ok ∧
      Memory.wf mem1.mem = true ∧
      dataAnswer mem1 (dataAccess mem1 false .half true false (singleAddr mem1 .offset true 1 2)) (armReg mem1 0) = .ok) ∧
    flag 0 (singleAddr mem1 .offset true 1 1) = true := by decide

theorem witness_DoublewordTransfers :
    condPassed .al mem1.cpsr = true ∧ offset3Sbz (.imm 8) = true ∧
    loadStoreAllowed .preIndexed 1 2 (offset3Reg (.imm 8)) false = true ∧
    fld 0 3 (singleAddr mem1 .preIndexed true 1 8) = 0#3 ∧ pairAllowed .preIndexed 1 2 (offset3Reg (.imm 8)) = true ∧
    pairAllowed .preIndexed 1 12 none = true ∧ Memory.wf mem1.mem = true ∧
    (loadStoreAllowed .preIndexed 3 2 none false = true ∧ (3 : Reg) = 2 + 1) ∧
    (loadStoreAllowed .offset 1 2 (offset3Reg (.reg 0 3)) false = true ∧ offset3Reg (.reg 0 3) = some ((2 : Reg) + 1)) ∧
    (loadStoreAllowed .preIndexed 1 3 none false = true ∧ flag 0 (3 : Reg) = true) ∧
    loadStoreAllowed .preIndexed 1 14 none false = true ∧
    (fld 0 3 (singleAddr mem1 .offset true 1 4) ≠ 0#3 ∧ fld 0 3 (singleAddr mem1 .offset true 1 1) ≠ 0#3 ∧
      fld 0 3 (singleAddr mem1 .offset true 1 7) ≠ 0#3) := by decide

theorem witness_DoublewordTransfers_answered :
    LoadsAnswered mem1 (singleAddr mem1 .preIndexed true 1 8) 2 ∧
    StoresAnswered mem1 [armReg mem1 2, armReg mem1 3] (singleAddr mem1 .preIndexed true 1 8) := by
  unfold LoadsAnswered StoresAnswered
  decide

theorem witness_SwapReadsThenWrites :
    condPassed .al mem1.cpsr = true ∧ (0 : Reg) ≠ 15 ∧ (1 : Reg) ≠ 15 ∧ (1 : Reg) ≠ 0 ∧ Memory.wf mem1.mem = true ∧
    (∀ z ∈ [Size.word, .byte],
      dataAnswer mem1 (dataAccess mem1 false z false true (armReg mem1 1)) 0 = .ok ∧
      dataAnswer (latched (dataAccess mem1 false z false true (armReg mem1 1)) 0 mem1)
        (dataAccess mem1 false z true true (armReg mem1 1)) (armReg mem1 0) = .ok ∧
      dataAnswer (latched (dataAccess mem1 false z false true (armReg mem1 1)) 0 (ignoring mem1))
        (dataAccess mem1 false z true true (armReg mem1 1)) (armReg mem1 0) = .ignored) := by decide

theorem witness_PldAndNopOnlyAdvance :
    flag 4 (0x00E : BitVec 12) = false ∧ fld 0 4 (0x00E : BitVec 12) ≠ 15#4 ∧ fld 0 4 (0xFE0 : BitVec 12) ≠ 15#4 ∧
    flag 4 (0x010 : BitVec 12) = true ∧ flag 4 (0x00F : BitVec 12) = false ∧ fld 0 4 (0x00F : BitVec 12) = 15#4 := by decide

/-- Every data access aborts. -/
def bad1 : State := aborting 0 0xFFFFFFFF mem1

theorem witness_AbortedTransferChangesNothing :
    condPassed .al bad1.cpsr = true ∧
    (∀ idx ∈ [Index.offset, .preIndexed, .postIndexed], loadStoreAllowed idx 1 0 (offset2Reg (.imm 4)) false = true ∧
      (∀ z ∈ [Size.byte, .word], ∀ w ∈ [false, true],
        dataAnswer bad1 (dataAccess bad1 false z w false (singleAddr bad1 idx true 1 (offset2 bad1 (.imm 4))))
          (if w then armReg bad1 0 else 0) = .abort)) ∧
    (∀ z ∈ [Size.byte, .word], ∀ w ∈ [false, true],
      dataAnswer bad1 (dataAccess bad1 true z w false (armReg bad1 1)) (if w then armReg bad1 0 else 0) = .abort) ∧
    (offset3Sbz (.imm 4) = true ∧ loadStoreAllowed .offset 1 0 (offset3Reg (.imm 4)) false = true ∧
      flag 0 (singleAddr bad1 .offset true 1 4) = false ∧
      dataAnswer bad1 (dataAccess bad1 false .half false false (singleAddr bad1 .offset true 1 4)) 0 = .abort ∧
      dataAnswer bad1 (dataAccess bad1 false .half true false (singleAddr bad1 .offset true 1 4)) (armReg bad1 0) = .abort) ∧
    (∀ z ∈ [Size.byte, .word], dataAnswer bad1 (dataAccess bad1 false z false true (armReg bad1 1)) 0 = .abort) ∧
    anyPc [0, 2, 1] = false ∧ (1 : Reg) ≠ 2 ∧ (1 : Reg) ≠ 0 := by decide

/-- A watchpoint on every data access, in monitor mode. -/
def watched1 : State := watching false (debugging true mem1)

/-- The platform aborts writes only. -/
def readOnly1 : State :=
  { mem1 with accessRules := bad1.accessRules.map fun r => { r with write := some true } }

theorem witness_AbortedTransferChangesNothing_watched :
    (∀ z ∈ [Size.byte, .half, .word], ∀ w ∈ [false, true], ∀ l ∈ [false, true],
      dataAnswer watched1 (dataAccess watched1 false z w l (armReg watched1 1)) (armReg watched1 0) = .debugAbort) ∧
    (∀ z ∈ [Size.byte, .word],
      dataAnswer readOnly1 (dataAccess readOnly1 false z false true (armReg readOnly1 1)) 0 = .ok ∧
      dataAnswer (latched (dataAccess readOnly1 false z false true (armReg readOnly1 1)) 0 readOnly1)
        (dataAccess readOnly1 false z true true (armReg readOnly1 1)) (armReg readOnly1 2) = .abort) ∧
    loadStoreAllowed .preIndexed 1 15 (offset2Reg (.imm 4)) true = true ∧
    fld 0 2 (singleAddr bad1 .preIndexed true 1 4) = 0#2 ∧
    flag 0 (armReg bad1 (lowReg 1) + 2 * zext (31 : BitVec 5)) = false := by decide

/-- A rule that aborts writes and one that ignores them, each at the ends of its range; DBGEN LOW. -/
theorem witness_AbortedTransferChangesNothing_rules :
    mem1.pins.dbgEn = false ∧
    platformAborts (aborting 0x1004 0xFFFFFFFF mem1) (dataAccess mem1 false .word false false 0x1004) = true ∧
    platformAborts (aborting 0x1004 0xFFFFFFFF mem1) (dataAccess mem1 false .word false false 0xFFFFFFFF) = true ∧
    platformAborts (aborting 0x1004 0xFFFFFFFF mem1) (dataAccess mem1 false .word false false 0x1003) = false ∧
    platformAborts readOnly1 (dataAccess mem1 false .word true false 0) = true ∧
    platformAborts readOnly1 (dataAccess mem1 false .word false false 0) = false ∧
    platformIgnores (ignoring mem1) (dataAccess mem1 false .byte true false 0xFFFFFFFF) = true ∧
    platformIgnores (ignoring mem1) (dataAccess mem1 false .byte false false 0) = false := by
  refine ⟨rfl, ?_, ?_, ?_, ?_, ?_, ?_, ?_⟩ <;> decide

theorem witness_MemoryReadsBackInTheByteOrder :
    Memory.wf mem1.mem = true ∧ 0x0FFF < (Size.align .word 0x1003).toNat ∧
    (Size.align .word 0x1003).toNat + Size.bytes .word ≤ 0x1004 ∧
    mem1.pins.bigEndian = false ∧ (pins (fun p => { p with bigEndian := true }) mem1).pins.bigEndian = true := by decide

/-- Lists of 16, 15 and 8 bits. -/
theorem witness_RegisterListsAscend :
    8 ≤ 16 ∧ 15 ≤ 16 ∧ 16 ≤ 16 ∧ listedRegs (0x8001 : BitVec 16) = [0, 15] ∧ listedRegs (0x4001 : BitVec 15) = [0, 14] ∧
    listedRegs (0x81 : BitVec 8) = [0, 7] := by decide

theorem witness_LoadMultiple :
    condPassed .al mem1.cpsr = true ∧ (0x800D : BitVec 16) ≠ 0 ∧ (1 : Reg) ≠ 15 ∧
    (0x800D : BitVec 16).getLsbD (1 : Reg).toNat = false ∧ (0x000D : BitVec 16).getLsbD 15 = false ∧
    (0x800D : BitVec 16).getLsbD 15 = true ∧ mem1.pins.disLTBit = false ∧
    fld 0 2 (readMem mem1 .word (0x1000 + (16 - 4))) ≠ 0b10#2 ∧
    (pins (fun p => { p with disLTBit := true }) mem1).pins.disLTBit = true := by decide

theorem witness_LoadMultiple_answered :
    LoadsAnswered mem1 (armReg mem1 1) (listedRegs (0x800D : BitVec 16)).length ∧
    LoadsAnswered (pins (fun p => { p with disLTBit := true }) mem1) (armReg mem1 1)
      (listedRegs (0x800D : BitVec 16)).length := by
  unfold LoadsAnswered
  decide

/-- IRQ mode, r1 at 0x1000. -/
def irq1 : State := setReg 1 0x1000 irq

theorem witness_UserBankMultiples :
    condPassed .al irq1.cpsr = true ∧ (1 : Reg) ≠ 15 ∧ mode irq1 ≠ modeUser ∧ mode irq1 ≠ modeSys ∧
    (0x6001 : BitVec 15) ≠ 0 ∧ (0x6001 : BitVec 16) ≠ 0 ∧ Memory.wf irq1.mem = true := by decide

theorem witness_UserBankMultiples_answered :
    LoadsAnswered irq1 (blockStart .ia (armReg irq1 1) (listedRegs (0x6001 : BitVec 15)).length)
      (listedRegs (0x6001 : BitVec 15)).length ∧
    StoresAnswered irq1 ((listedRegs (0x6001 : BitVec 16)).map fun r => if r = 15 then storedPc irq1 else regAt irq1 modeUser r)
      (blockStart .db (armReg irq1 1) (listedRegs (0x6001 : BitVec 16)).length) := by
  unfold LoadsAnswered StoresAnswered
  decide

/-- An LDM (3) with an SPSR of ARM state, and one of Thumb state. -/
theorem witness_LoadMultipleReturnsFromException :
    condPassed .al svc.cpsr = true ∧ (13 : Reg) ≠ 15 ∧ (0x000F : BitVec 15).getLsbD (13 : Reg).toNat = false ∧
    spsr usr = none ∧ spsr (withSpsr 0x30) = some 0x30 ∧ flag 5 (0x30 : Word) = true ∧
    spsr (withSpsr 0x10) = some 0x10 ∧ flag 5 (0x10 : Word) = false ∧
    fld 0 2 (readMem (withSpsr 0x10) .word (0x1000 + BitVec.ofNat 32 (4 * 4))) = 0#2 ∧
    fld 0 2 (readMem (poke 0x1010 0x8801 (withSpsr 0x10)) .word (0x1000 + BitVec.ofNat 32 (4 * 4))) ≠ 0#2 := by decide

theorem witness_LoadMultipleReturnsFromException_answered :
    LoadsAnswered (setReg 13 0x1000 (withSpsr 0x30)) (blockStart .ia 0x1000 5) 5 ∧
    LoadsAnswered (setReg 13 0x1000 (poke 0x1010 0x8801 (withSpsr 0x10))) (blockStart .ia 0x1000 5) 5 := by
  unfold LoadsAnswered
  decide

theorem witness_StoreMultiple :
    condPassed .al mem1.cpsr = true ∧ (0x000D : BitVec 16) ≠ 0 ∧ (1 : Reg) ≠ 15 ∧ Memory.wf mem1.mem = true := by decide

/-- Whatever the words are: with debug off and no access rule every store is answered. -/
theorem witness_StoreMultiple_answered (words : List Word) : StoresAnswered mem1 words (armReg mem1 1) :=
  fun _ _ => by
    rw [storesSeen_off _ _ _ rfl]
    rfl

/-- Coprocessor 1 attached, with one answer. -/
def cop (answer : CopAnswer) (s : State) : State := { s with cops := [{ num := 1, answers := [answer], received := [] }] }

/-- Loads from 0x1004 on abort. -/
def half1 : State := aborting 0x1004 0xFFFFFFFF mem1

theorem witness_AbortedMultipleKeepsWhatCameBefore :
    condPassed .al half1.cpsr = true ∧ (0x000D : BitVec 16) ≠ 0 ∧ (1 : Reg) ≠ 15 ∧
    (0x000D : BitVec 16).getLsbD (1 : Reg).toNat = false ∧ 1 < (listedRegs (0x000D : BitVec 16)).length ∧
    dataAnswer half1 (dataAccess half1 false .word false false (armReg half1 1 + BitVec.ofNat 32 (4 * 1))) 0 = .abort ∧
    dataAnswer bad1 (dataAccess bad1 false .word false false (armReg bad1 1 + BitVec.ofNat 32 (4 * 0))) 0 = .abort ∧
    Memory.wf half1.mem = true ∧
    dataAnswer half1 (dataAccess half1 false .word true false (armReg half1 1 + BitVec.ofNat 32 (4 * 1))) (armReg half1 2) =
      .abort := by decide

theorem witness_AbortedMultipleKeepsWhatCameBefore_answered :
    LoadsAnswered half1 (armReg half1 1) 1 ∧ LoadsAnswered bad1 (armReg bad1 1) 0 ∧
    StoresAnswered half1 ((storedWords half1 (mode half1) true 1 (listedRegs (0x000D : BitVec 16))).take 1) (armReg half1 1) := by
  unfold LoadsAnswered StoresAnswered
  decide

/-- The second word of every other form aborts: an SPSR, an accepting coprocessor, a doubleword, a stack. -/
theorem witness_AbortedMultipleKeepsWhatCameBefore_forms :
    spsr half1 ≠ none ∧ mode half1 ≠ modeUser ∧ mode half1 ≠ modeSys ∧ 1 < (listedRegs (0x000D : BitVec 15)).length ∧
    offset3Sbz (.imm 0) = true ∧ loadStoreAllowed .offset 1 2 (offset3Reg (.imm 0)) false = true ∧
    fld 0 3 (singleAddr half1 .offset true 1 0) = 0#3 ∧ pairAllowed .offset 1 2 (offset3Reg (.imm 0)) = true ∧
    copAnswer (cop (.accept 5 6 [7]) half1) 1 = .accept 5 6 [7] ∧ (1 : BitVec 4) ≠ 14 ∧
    ([7] : List Word).length < 2 ^ 30 ∧ (true || false || false) = true ∧
    1 < (listedRegs (0x81 : BitVec 8)).length ∧ (0x81 : BitVec 8).getLsbD (1 : LowReg).toNat = false ∧
    regAt (setReg 13 0x1000 half1) (mode half1) 13 = 0x1000 ∧
    dataAnswer (loadsSeen half1 0x1000 1) (dataAccess half1 false .word false false (0x1000 + BitVec.ofNat 32 (4 * 1))) 0 =
      .abort ∧
    dataAnswer (storesSeen half1 ([5, 7].take 1) 0x1000)
      (dataAccess half1 false .word true false (0x1000 + BitVec.ofNat 32 (4 * 1))) 7 = .abort := by decide

theorem witness_MrsReadsAStatusRegister :
    condPassed .al usr.cpsr = true ∧ (14 : Reg) ≠ 15 ∧ spsr (withSpsr 0x10) = some 0x10 ∧ mode usr = modeUser ∧
    mode (at_ 0 0x1F) = modeSys := by decide

theorem witness_MsrWritesTheSelectedBytes :
    condPassed .al svc.cpsr = true ∧ (1 : Reg) ≠ 15 ∧ (8 : BitVec 4) ≠ 0 ∧
    (∀ k, k < 32 → flag k (0xF00000D3 : Word) =
      if flag (k / 8) (8 : BitVec 4) && (mode svc != modeUser || decide (24 ≤ k)) then
        flag k (armReg (setReg 1 0xF0000010 svc) 1) else flag k svc.cpsr) ∧
    flag 5 (0xF00000D3 : Word) = flag 5 svc.cpsr ∧
    (∀ k, k < 32 → flag k (0x00000033 : Word) =
      if flag (k / 8) (1 : BitVec 4) && (mode svc != modeUser || decide (24 ≤ k)) then
        flag k (armReg (setReg 1 0x33 svc) 1) else flag k svc.cpsr) ∧
    flag 5 (0x00000033 : Word) ≠ flag 5 svc.cpsr := by decide

theorem witness_MsrWritesTheSelectedBytes_spsr :
    spsr usr = none ∧ spsr (withSpsr 0x60000010) = some 0x60000010 ∧
    (∀ k, k < 32 → flag k (0x60000030 : Word) =
      if flag (k / 8) (1 : BitVec 4) then flag k (armReg (setReg 1 0x30 svc) 1) else flag k (0x60000010 : Word)) ∧
    (∀ k, k < 32 → flag k (0xF0000010 : Word) =
      if flag (k / 8) (8 : BitVec 4) && (mode usr != modeUser || decide (24 ≤ k)) then
        flag k (armReg (setReg 1 0xF00000D3 usr) 1) else flag k usr.cpsr) := by decide

theorem witness_UserModeLeavesOnlyByException :
    mode usr = modeUser ∧ usr.vectorEntered = none ∧ answers (exec (.msrReg .al false 9 15 0 0) usr) = true ∧
    answers (exec (.armSwi .al 0) usr) = true := by decide

theorem witness_UnacceptedCoprocessorInstructionsTrapOrWait :
    condPassed .al svc.cpsr = true ∧ (1 : BitVec 4) ≠ 14 ∧ (false || true || false) = true ∧ copAnswer svc 1 = .absent ∧ copAnswer (cop .wait svc) 1 = .wait := by decide

/-- Two ports: the second with an answer and then without one; no port for coprocessor 3. -/
def ports (answers : List CopAnswer) : List CopPort :=
  [{ num := 1, answers := [.wait], received := [] }, { num := 2, answers := answers, rest := .wait, received := [] }]

theorem witness_UnacceptedCoprocessorInstructionsTrapOrWait_ports :
    (∀ q ∈ ports [], q.num ≠ 3) ∧ (∀ q ∈ (ports []).take 1, q.num ≠ 2) ∧
    copAnswer { svc with cops := ports [] } 2 = .wait ∧
    copAnswer { svc with cops := ports [.accept 5 6 []] } 2 = .accept 5 6 [] ∧
    advancePort 2 [] (ports [.accept 5 6 []]) = ports [] := by decide

theorem witness_AcceptedCoprocessorInstructionsExchangeWords :
    condPassed .al svc.cpsr = true ∧ (1 : BitVec 4) ≠ 14 ∧ copAnswer (cop (.accept 5 6 []) svc) 1 = .accept 5 6 [] ∧
    (14 : Reg) ≠ 15 ∧ (2 : Reg) ≠ 15 ∧ (14 : Reg) ≠ 2 := by decide

theorem witness_CoprocessorLoadsAndStores :
    condPassed .al mem1.cpsr = true ∧ (1 : BitVec 4) ≠ 14 ∧ (false || false || true) = true ∧ (1 : Reg) ≠ 15 ∧
    ([7] : List Word).length < 2 ^ 30 ∧ copAnswer (cop (.accept 5 6 [7]) mem1) 1 = .accept 5 6 [7] ∧
    Memory.wf mem1.mem = true := by decide

theorem witness_CoprocessorLoadsAndStores_answered :
    LoadsAnswered (cop (.accept 5 6 [7]) mem1) (armReg mem1 1) 2 ∧
    StoresAnswered (cop (.accept 5 6 [7]) mem1) [5, 7] (armReg mem1 1 - 4 * zext (2 : BitVec 8)) := by
  unfold LoadsAnswered StoresAnswered
  decide

theorem witness_CommsChannelRegisters :
    condPassed .al svc.cpsr = true ∧ (14 : Reg) ≠ 15 ∧ svc.dbg.commsR = false ∧ svc.dbg.commsW = false ∧
    ({ svc.dbg with commsR := true, commsW := true }).commsR = true ∧
    ({ svc.dbg with commsR := true, commsW := true }).commsW = true ∧
    (2 : BitVec 4) < 3 ∧ (2 : BitVec 4) < 15 ∧ (1 : BitVec 3) ≠ 0 ∧
    ({ svc.dbg with tapInstruction := 0b1100, scanChain := 2 }).scanChain = 2 := by decide

theorem witness_ThumbLogical : (1 : LowReg) ≠ 0 := by decide

theorem witness_ThumbHighRegistersAndAddresses :
    (true || false) = true ∧ (false || false) = false ∧ (BitVec.ofBool true ++ (7 : LowReg) : Reg) = 15 ∧
    (BitVec.ofBool true ++ (6 : LowReg) : Reg) ≠ 15 ∧ (BitVec.ofBool false ++ (7 : LowReg) : Reg) ≠ 15 := by decide

theorem witness_ThumbBranchesToALabel : condPassed .pl tsvc.cpsr = true := by decide

theorem witness_ThumbLongBranchPair : fld 0 1 tsvc.pc = 0#1 ∧ fld 0 1 (0xFFFFFFFE : Word) = 0#1 := by decide

/-- Thumb state, r1 at 0x1000. -/
def tmem1 : State := setReg 13 0x1000 (setReg 1 0x1000 (poke 0x1004 0x9001 (poke 0x1000 0x44332211 tsvc)))

theorem witness_ThumbLoads :
    (∀ z ∈ [Size.byte, .half, .word], dataAnswer tmem1 (dataAccess tmem1 false z false false (armReg tmem1 1 + 2)) 0 = .ok) ∧
    flag 0 (armReg tmem1 1 + 2) = false ∧ flag 0 (armReg tmem1 1 + 1) = true := by decide

theorem witness_ThumbStores :
    Memory.wf tmem1.mem = true ∧
    (∀ z ∈ [Size.byte, .half, .word],
      dataAnswer tmem1 (dataAccess tmem1 false z true false (armReg tmem1 1 + 2)) (armReg tmem1 (lowReg 0)) = .ok) ∧
    dataAnswer (ignoring tmem1) (dataAccess tmem1 false .byte true false (armReg tmem1 1)) (armReg tmem1 (lowReg 0)) =
      .ignored ∧
    flag 0 (armReg tmem1 1 + 2 * zext (31 : BitVec 5)) = false ∧ flag 0 (armReg tmem1 1 + 1) = true := by decide

theorem witness_ThumbMultiples :
    (false = false ∧ (0 : BitVec 8) = 0) ∧ (0x81 : BitVec 8) ≠ 0 ∧ Memory.wf tmem1.mem = true ∧
    tmem1.pins.disLTBit = false ∧ fld 0 2 (readMem tmem1 .word (0x1000 + (8 - 4))) ≠ 0b10#2 ∧
    (pins (fun p => { p with disLTBit := true }) tmem1).pins.disLTBit = true ∧
    (0x81 : BitVec 8).getLsbD (1 : LowReg).toNat = false ∧ (0x81 : BitVec 8).getLsbD (7 : LowReg).toNat = true := by decide

theorem witness_ThumbMultiples_answered :
    StoresAnswered tmem1 ([0, 14].map fun q => regAt tmem1 (mode tmem1) q) (regAt tmem1 (mode tmem1) 13 - 8) ∧
    LoadsAnswered tmem1 (regAt tmem1 (mode tmem1) 13) 2 ∧ LoadsAnswered tmem1 (armReg tmem1 (lowReg 1)) 2 ∧
    LoadsAnswered (pins (fun p => { p with disLTBit := true }) tmem1) (regAt tmem1 (mode tmem1) 13) 2 := by
  unfold LoadsAnswered StoresAnswered
  decide

/-- Whatever the words are. -/
theorem witness_ThumbMultiples_stmia (words : List Word) : StoresAnswered tmem1 words (armReg tmem1 (lowReg 1)) :=
  fun _ _ => by
    rw [storesSeen_off _ _ _ rfl]
    rfl

theorem witness_UnpredictableFormsAreRefused :
    condPassed .al usr.cpsr = true ∧ (1 : Reg) ≠ 0 ∧ (15 : Reg) ≠ 0 ∧ (0xFFE : BitVec 12) ≠ 0xFFF ∧
    (Index.preIndexed ≠ .offset ∧ offset2Reg (.reg 0 .lsl 2) = some 2) ∧
    ((0x8001 : BitVec 16) ≠ 0 ∧ (0x8001 : BitVec 16).getLsbD (0 : Reg).toNat = true) ∧
    (0x4000 : BitVec 15) ≠ 0 ∧ mode usr = modeUser ∧ mode (at_ 0 0x1F) = modeSys := by decide

theorem witness_ForbiddenRegistersAreRefused :
    condPassed .al svc.cpsr = true ∧ (1 : BitVec 4) ≠ 14 ∧ (0 : BitVec 4) ≠ 15 ∧ (14 : BitVec 4) ≠ 15 ∧
    loadStoreAllowed .preIndexed 1 1 (offset2Reg (.imm 0)) true = false ∧
    loadStoreAllowed .offset 1 15 (offset2Reg (.imm 0)) false = false ∧
    loadStoreAllowed .postIndexed 15 0 (offset2Reg (.imm 0)) false = false ∧
    loadStoreAllowed .offset 1 0 (offset2Reg (.reg 0 .lsl 15)) true = false ∧
    offset3Sbz (.reg 1 0) = false ∧ (offset3Sbz (.imm 0) = true ∧
      loadStoreAllowed .postWriteback 1 0 (offset3Reg (.imm 0)) false = false) ∧
    copAnswer (cop (.accept 5 6 []) svc) 1 = .accept 5 6 [] ∧ (1 : BitVec 4) ≠ 0 ∧ (7 : BitVec 3) ≠ 0 ∧
    operand2Allowed [15, 0] (.shiftReg 1 .lsl 2) = false ∧ operand2Allowed [0] (.shiftReg 15 .lsl 2) = false ∧
    (0x8000 : BitVec 16) ≠ 0 ∧ (0x4000 : BitVec 15).getLsbD (14 : Reg).toNat = true := by decide

/-- The words that LDM and POP refuse to load to r15. -/
theorem witness_LoadMultiple_refused :
    fld 0 2 (readMem (poke 0x1004 0x9002 mem1) .word 0x1004) = 0b10#2 ∧
    fld 0 2 (readMem (poke 0x1004 0x9002 tmem1) .word (0x1000 + (8 - 4))) = 0b10#2 := by decide

end Sys2Proof.Tests
end

/-! Proofs about the machine's state: reset (spec/10_state.md R57; 70_reset_and_hazards.md R630, R636) and the invariant
that every step keeps. -/

/-! What a reset leaves of memory: bytes picked from the state before and the state the abandoned instruction leaves. -/

namespace Sys2Proof.Machine

/-- The addresses of a canonical memory lie in the address space. -/
theorem addr_lt_of_memWfFrom {m : List Host.Cell} {lo : Nat} (hw : memWfFrom lo m = true) : ∀ c ∈ m, c.1 < 2 ^ 32 := by
  induction m generalizing lo with
  | nil => simp
  | cons p m ih =>
    obtain ⟨a, b⟩ := p
    simp only [memWfFrom, Bool.and_eq_true, decide_eq_true_eq] at hw
    obtain ⟨⟨⟨_, ha⟩, _⟩, hm⟩ := hw
    rintro c (_ | ⟨_, hc⟩)
    · exact ha
    · exact ih hm c hc

/-- One step of `mixMem`: the cell's byte is taken from `new` where `take` picks its address. -/
def copyCell (take : Nat → Bool) (new m : List Host.Cell) (c : Host.Cell) : List Host.Cell :=
  if take c.1 then memPut m c.1 (memGet new c.1) else m

theorem mixMem_eq_foldl (take : Nat → Bool) (old new : List Host.Cell) :
    mixMem take old new = (old ++ new).foldl (copyCell take new) old := rfl

theorem wf_copyCell {take : Nat → Bool} {new m : List Host.Cell} {c : Host.Cell} (hc : c.1 < 2 ^ 32)
    (hm : Memory.wf m = true) : Memory.wf (copyCell take new m c) = true := by
  unfold copyCell
  split
  · exact Memory.wf_memPut m c.1 _ hc hm
  · exact hm

theorem memGet_copyCell {take : Nat → Bool} {new m : List Host.Cell} (c : Host.Cell) (hm : Memory.wf m = true) (a : Nat) :
    memGet (copyCell take new m c) a = memGet m a ∨ memGet (copyCell take new m c) a = memGet new a := by
  unfold copyCell
  split
  · by_cases ha : a = c.1
    · subst ha
      exact .inr (memGet_memPut_same m 0 c.1 _ hm)
    · exact .inl (memGet_memPut_other m c.1 a _ ha)
  · exact .inl rfl

/-- Copying cells keeps the canonical form, and every byte is the old one or the one copied. -/
theorem foldl_copyCell {take : Nat → Bool} {new : List Host.Cell} (cells : List Host.Cell) (m : List Host.Cell)
    (hc : ∀ c ∈ cells, c.1 < 2 ^ 32) (hm : Memory.wf m = true) :
    Memory.wf (cells.foldl (copyCell take new) m) = true ∧
    ∀ a, memGet (cells.foldl (copyCell take new) m) a = memGet m a ∨
      memGet (cells.foldl (copyCell take new) m) a = memGet new a := by
  induction cells generalizing m with
  | nil => exact ⟨hm, fun _ => .inl rfl⟩
  | cons c cells ih =>
    obtain ⟨hwf, hget⟩ := ih (copyCell take new m c) (fun d hd => hc d (.tail _ hd)) (wf_copyCell (hc c (.head _)) hm)
    refine ⟨hwf, fun a => ?_⟩
    rcases hget a with h | h
    · rw [List.foldl_cons, h]
      exact memGet_copyCell c hm a
    · exact .inr h

theorem addr_lt_of_append {old new : List Host.Cell} (ho : Memory.wf old = true) (hn : Memory.wf new = true) :
    ∀ c ∈ old ++ new, c.1 < 2 ^ 32 := fun c hc =>
  (List.mem_append.mp hc).elim (addr_lt_of_memWfFrom ho c) (addr_lt_of_memWfFrom hn c)

theorem wf_mixMem (take : Nat → Bool) {old new : List Host.Cell} (ho : Memory.wf old = true) (hn : Memory.wf new = true) :
    Memory.wf (mixMem take old new) = true := by
  rw [mixMem_eq_foldl]
  exact (foldl_copyCell _ old (addr_lt_of_append ho hn) ho).1

theorem memGet_mixMem (take : Nat → Bool) {old new : List Host.Cell} (ho : Memory.wf old = true)
    (hn : Memory.wf new = true) (a : Nat) :
    memGet (mixMem take old new) a = memGet old a ∨ memGet (mixMem take old new) a = memGet new a := by
  rw [mixMem_eq_foldl]
  exact (foldl_copyCell _ old (addr_lt_of_append ho hn) ho).2 a

/-! A reset during the run (70_reset_and_hazards.md R630, R636). -/

theorem resetDuringRun_of_next {s u : State} (h : boundary s = .next u) :
    resetDuringRun s = resetMachine (abandoned s u) := by simp [resetDuringRun, h]

/-- Where the boundary stops, nothing is abandoned. -/
theorem resetDuringRun_of_stopped {s : State} (h : ∀ u, boundary s ≠ .next u) : resetDuringRun s = resetMachine s := by
  unfold resetDuringRun
  split
  · exact absurd ‹_› (h _)
  · rfl
  · rfl

/-- The two ways a reset during the run goes: an instruction is abandoned, or none is. -/
theorem resetDuringRun_cases (s : State) :
    (∃ u, boundary s = .next u ∧ resetDuringRun s = resetMachine (abandoned s u)) ∨
    ((∀ u, boundary s ≠ .next u) ∧ resetDuringRun s = resetMachine s) := by
  by_cases h : ∃ u, boundary s = .next u
  · obtain ⟨u, hu⟩ := h
    exact .inl ⟨u, hu, resetDuringRun_of_next hu⟩
  · have hn : ∀ u, boundary s ≠ .next u := fun u hu => h ⟨u, hu⟩
    exact .inr ⟨hn, resetDuringRun_of_stopped hn⟩

/-- Supervisor mode, I and F set, ARM state, the pc at the reset vector (10_state.md R57). -/
structure AtResetVector (s : State) : Prop where
  mode : psrM s.cpsr = 0b10011
  irqOff : psrI s.cpsr = true
  fiqOff : psrF s.cpsr = true
  arm : psrT s.cpsr = false
  pc : s.pc = vectorBase s

theorem atResetVector_reset : AtResetVector State.reset := by
  constructor <;> decide

theorem flag_resetMachine_cpsr (s : State) (i : Nat) (hi : i < 8) : flag i (resetMachine s).cpsr = flag i 0xD3#8 := by
  rw [resetMachine_cpsr]
  exact flag_push_lo _ _ i hi (by omega)

theorem atResetVector_resetMachine (s : State) : AtResetVector (resetMachine s) where
  mode := by
    rw [resetMachine_cpsr, psrM, fld_push_lo _ _ 0 5 (by omega) (by omega)]
    decide
  irqOff := flag_resetMachine_cpsr s 7 (by omega)
  fiqOff := flag_resetMachine_cpsr s 6 (by omega)
  arm := flag_resetMachine_cpsr s 5 (by omega)
  pc := by simp [vectorBase]

/-- The debug unit, the latch and the coprocessors after a reset are those before it, or those the abandoned instruction
leaves. -/
theorem resetMachine_abandoned_outside (s u : State) :
    let t := resetMachine (abandoned s u)
    (t.dbg = s.dbg ∧ t.chainOut = s.chainOut ∧ t.cops = s.cops) ∨
      (t.dbg = u.dbg ∧ t.chainOut = u.chainOut ∧ t.cops = u.cops) := by
  cases hm : Config.resetTransferred s.tick
  · exact .inl (by simp [abandoned, hm])
  · exact .inr (by simp [abandoned, hm])

theorem resetMachine_abandoned_mem (s u : State) :
    (resetMachine (abandoned s u)).mem = mixMem (Config.resetWrote s.tick) s.mem u.mem := by
  rw [resetMachine_mem]
  rfl

end Sys2Proof.Machine

section
open Sys2Proof Sys2Proof.Machine

/-- Settles O5: the two ways a reset during the run ends, an instruction abandoned or none, share `resetMachine`. -/
theorem resetEntersSupervisorAtTheVector : Obligations.ResetEntersSupervisorAtTheVector := by
  unfold Obligations.ResetEntersSupervisorAtTheVector
  intro entered same
  have enter : ∀ s, AtResetVector s → entered s := fun s h => ⟨h.mode, h.irqOff, h.fiqOff, h.arm, h.pc⟩
  refine ⟨enter _ atResetVector_reset, fun s => ⟨resetDuringRun s, rfl, ?_⟩⟩
  rcases resetDuringRun_cases s with ⟨u, hu, e⟩ | ⟨hn, e⟩ <;> rw [e]
  · refine ⟨enter _ (atResetVector_resetMachine _), by simp, by simp, by simp, by simp, by simp,
      fun hn => absurd hu (hn u), fun u' hu' => ?_⟩
    obtain rfl : u = u' := by
      rw [hu] at hu'
      exact Host.Outcome.next.inj hu'
    refine ⟨resetMachine_abandoned_outside s u, fun hs hu a => ?_⟩
    rw [resetMachine_abandoned_mem]
    exact memGet_mixMem _ hs hu a
  · refine ⟨enter _ (atResetVector_resetMachine _), by simp, by simp, by simp, by simp, by simp, fun _ => ?_,
      fun u hu => absurd hu (hn u)⟩
    exact ⟨resetMachine_mem s, resetMachine_debug s, resetMachine_chainOut s, resetMachine_cops s⟩

/-- Settles O6. -/
theorem invariantHoldsAtReset : Obligations.InvariantHoldsAtReset where
  mem := reset_memory_wf.1
  imem := reset_memory_wf.2
  pc := by
    unfold PcAligned
    decide
  mask0 := by decide
  mask1 := by decide
  ports := by decide

end

/-! The decoder gives ARM instructions for words (30_encoding.md R136), one lemma for each of its parts. -/

namespace Sys2Proof

theorem isThumb_ite {c : Prop} [Decidable c] {a b : Instr} (ha : a.isThumb = false) (hb : b.isThumb = false) :
    (if c then a else b).isThumb = false := by
  split
  · exact ha
  · exact hb

theorem decodeUncond_isThumb (w : Word) : (decodeUncond w).isThumb = false := by
  unfold decodeUncond
  repeat' apply isThumb_ite
  all_goals rfl

theorem decodeMulSwp_isThumb (w : Word) : (decodeMulSwp w).isThumb = false := by
  unfold decodeMulSwp
  repeat' apply isThumb_ite
  all_goals rfl

theorem decodeExtra_isThumb (w : Word) : (decodeExtra w).isThumb = false := by
  unfold decodeExtra
  repeat' apply isThumb_ite
  all_goals rfl

theorem decodeMisc_isThumb (w : Word) : (decodeMisc w).isThumb = false := by
  unfold decodeMisc
  repeat' apply isThumb_ite
  all_goals rfl

theorem decodeDp_isThumb (w : Word) : (decodeDp w).isThumb = false := by
  unfold decodeDp
  repeat' apply isThumb_ite
  all_goals rfl

theorem decode000_isThumb (w : Word) : (decode000 w).isThumb = false :=
  isThumb_ite (isThumb_ite (decodeMulSwp_isThumb w) (decodeExtra_isThumb w))
    (isThumb_ite (decodeMisc_isThumb w) (decodeDp_isThumb w))

theorem decode001_isThumb (w : Word) : (decode001 w).isThumb = false :=
  isThumb_ite (isThumb_ite (isThumb_ite rfl rfl) rfl) (decodeDp_isThumb w)

theorem decode01_isThumb (w : Word) : (decode01 w).isThumb = false := by
  unfold decode01
  repeat' apply isThumb_ite
  all_goals rfl

theorem decode100_isThumb (w : Word) : (decode100 w).isThumb = false := by
  unfold decode100
  repeat' apply isThumb_ite
  all_goals rfl

theorem decode110_isThumb (w : Word) : (decode110 w).isThumb = false := by
  unfold decode110
  repeat' apply isThumb_ite
  all_goals rfl

theorem decode111_isThumb (w : Word) : (decode111 w).isThumb = false := by
  unfold decode111
  repeat' apply isThumb_ite
  all_goals rfl

theorem decodeArm_isThumb (w : Word) : (decodeArm w).isThumb = false :=
  isThumb_ite (decodeUncond_isThumb w) <| isThumb_ite (decode01_isThumb w) <| isThumb_ite (decode000_isThumb w) <|
    isThumb_ite (decode001_isThumb w) <| isThumb_ite (decode100_isThumb w) <| isThumb_ite (isThumb_ite rfl rfl) <|
    isThumb_ite (decode110_isThumb w) (decode111_isThumb w)

end Sys2Proof

/-! The parts of the invariant, and what each update of the state makes of them. -/

namespace Sys2Proof.Machine

/-- An address is aligned for a state bit: a multiple of 2 in Thumb state, of 4 in ARM state (10_state.md R40). -/
def AlignedFor (t : Bool) (a : Word) : Prop := if t then fld 0 1 a = 0#1 else fld 0 2 a = 0#2

theorem pcAligned_iff (s : State) : PcAligned s ↔ AlignedFor (thumb s) s.pc := Iff.rfl

/-- Alignment by the low bits. -/
theorem alignedFor_iff_flag (t : Bool) (a : Word) : AlignedFor t a ↔ flag 0 a = false ∧ (t = false → flag 1 a = false) := by
  cases t
  · have h : AlignedFor false a ↔ ∀ i, i < 2 → flag (0 + i) a = flag i 0#2 := fld_eq_iff 0 2 a 0#2
    rw [h]
    constructor
    · exact fun h => ⟨h 0 (by omega), fun _ => h 1 (by omega)⟩
    · rintro ⟨h0, h1⟩ i hi
      obtain rfl | rfl : i = 0 ∨ i = 1 := by omega
      · exact h0
      · exact h1 rfl
  · have h : AlignedFor true a ↔ ∀ i, i < 1 → flag (0 + i) a = flag i 0#1 := fld_eq_iff 0 1 a 0#1
    rw [h]
    constructor
    · exact fun h => ⟨h 0 (by omega), nofun⟩
    · rintro ⟨h0, _⟩ i hi
      obtain rfl : i = 0 := by omega
      exact h0

/-- Alignment by the remainder. -/
theorem alignedFor_iff_mod (t : Bool) (a : Word) : AlignedFor t a ↔ a.toNat % (if t then 2 else 4) = 0 := by
  cases t
  · show fld 0 2 a = 0#2 ↔ _
    rw [← BitVec.toNat_inj]
    simp [fld]
  · show fld 0 1 a = 0#1 ↔ _
    rw [← BitVec.toNat_inj]
    simp [fld]

/-- What is aligned for ARM state is aligned for either. -/
theorem AlignedFor.of_arm {a : Word} (h : AlignedFor false a) (t : Bool) : AlignedFor t a := by
  obtain ⟨h0, h1⟩ := (alignedFor_iff_flag false a).mp h
  exact (alignedFor_iff_flag t a).mpr ⟨h0, fun _ => h1 rfl⟩

theorem AlignedFor.add {t : Bool} {a b : Word} (ha : AlignedFor t a) (hb : AlignedFor t b) : AlignedFor t (a + b) := by
  rw [alignedFor_iff_mod] at *
  rw [BitVec.toNat_add]
  cases t
  · simp only [Bool.false_eq_true, if_false] at *
    omega
  · simp only [if_true] at *
    omega

theorem alignedFor_four (t : Bool) : AlignedFor t 4 := AlignedFor.of_arm (by unfold AlignedFor; decide) t

theorem alignedFor_eight (t : Bool) : AlignedFor t 8 := AlignedFor.of_arm (by unfold AlignedFor; decide) t

/-- A number of words is aligned for either state. -/
theorem alignedFor_words (t : Bool) (a : Word) : AlignedFor t (a <<< 2) :=
  AlignedFor.of_arm ((alignedFor_iff_flag _ _).mpr ⟨by simp [flag], fun _ => by simp [flag]⟩) t

/-- A number of halfwords is aligned for Thumb state. -/
theorem alignedFor_halfwords (a : Word) : AlignedFor true (a <<< 1) :=
  (alignedFor_iff_flag _ _).mpr ⟨by simp [flag], nofun⟩

theorem alignedFor_evenAddr (a : Word) : AlignedFor true (evenAddr a) :=
  (alignedFor_iff_flag _ _).mpr ⟨by simp [flag, evenAddr], nofun⟩

theorem alignedFor_wordAddr (a : Word) : AlignedFor false (a &&& 0xFFFFFFFC) :=
  (alignedFor_iff_flag _ _).mpr ⟨by simp [flag], fun _ => by simp [flag]⟩

/-- The target of `BX`: bit 0 is the state bit, and bits 1:0 are not 10 (42_arm_branch.md R272). -/
theorem alignedFor_exchange {a : Word} (h : fld 0 2 a ≠ 0b10#2) : AlignedFor (flag 0 a) (evenAddr a) := by
  cases ht : flag 0 a
  · have h1 : flag 1 a = false := by
      by_contra h1
      refine h ((fld_eq_iff 0 2 a _).mpr fun i hi => ?_)
      obtain rfl | rfl : i = 0 ∨ i = 1 := by omega
      · exact ht
      · rw [(Bool.not_eq_false _).mp h1]
        rfl
    refine (alignedFor_iff_flag _ _).mpr ⟨by simp [flag, evenAddr], fun _ => ?_⟩
    have : flag 1 (evenAddr a) = (flag 1 a && flag 1 (0xFFFFFFFE : Word)) := by simp only [flag, evenAddr, BitVec.getLsbD_and]
    rw [this, h1, Bool.false_and]
  · exact alignedFor_evenAddr a

/-- Every vector is aligned for ARM state (60_exceptions.md R555). -/
theorem alignedFor_vectorBase (s : State) : AlignedFor false (vectorBase s) := by
  unfold vectorBase
  split
  · exact (alignedFor_iff_flag _ _).mpr (by decide)
  · exact (alignedFor_iff_flag _ _).mpr (by decide)

theorem alignedFor_offset (e : Exception) : AlignedFor false e.offset := by
  unfold AlignedFor
  cases e <;> decide

/-! The state bit T of a status register. -/

theorem flag_setBit (w : Word) (i j : Nat) (b : Bool) (hj : j < 32) :
    flag j (setBit w i b) = if i = j then b else flag j w := by
  unfold setBit flag
  by_cases hij : i = j
  · subst hij
    cases b <;> simp [hj]
  · cases b <;> simp [hij, Ne.symm hij, hj]

@[simp] theorem psrT_setBit_five (p : Word) (b : Bool) : psrT (setBit p 5 b) = b := flag_setBit p 5 5 b (by omega)

theorem psrT_setBit_other (p : Word) (i : Nat) (b : Bool) (hi : i ≠ 5) : psrT (setBit p i b) = psrT p :=
  (flag_setBit p i 5 b (by omega)).trans (if_neg hi)

@[simp] theorem psrT_setNZ (p : Word) (n z : Bool) : psrT (setNZ p n z) = psrT p := by
  rw [setNZ, psrT_setBit_other _ _ _ (by decide), psrT_setBit_other _ _ _ (by decide)]

@[simp] theorem psrT_setNZC (p : Word) (n z c : Bool) : psrT (setNZC p n z c) = psrT p := by
  rw [setNZC, psrT_setBit_other _ _ _ (by decide), psrT_setNZ]

@[simp] theorem psrT_setNZCV (p : Word) (n z c v : Bool) : psrT (setNZCV p n z c v) = psrT p := by
  rw [setNZCV, psrT_setBit_other _ _ _ (by decide), psrT_setNZC]

@[simp] theorem psrT_setResultNZ (p v : Word) : psrT (setResultNZ p v) = psrT p := psrT_setNZ _ _ _
@[simp] theorem psrT_setLogical (p v : Word) (c : Bool) : psrT (setLogical p v c) = psrT p := psrT_setNZC _ _ _ _
@[simp] theorem psrT_setArithmetic (p : Word) (r : AluResult) : psrT (setArithmetic p r) = psrT p :=
  psrT_setNZCV _ _ _ _ _

@[simp] theorem psrT_stickyQ (p : Word) (b : Bool) : psrT (stickyQ p b) = psrT p := by
  unfold stickyQ
  split
  · exact psrT_setBit_other _ _ _ (by decide)
  · rfl

/-- An exception enters ARM state (60_exceptions.md R560). -/
@[simp] theorem psrT_entryCpsr (e : Exception) (old : Word) : psrT (entryCpsr e old) = false := by
  unfold entryCpsr
  dsimp only
  split
  · rw [psrT_setBit_other _ _ _ (by decide), psrT_setBit_other _ _ _ (by decide), psrT_setBit_five]
  · rw [psrT_setBit_other _ _ _ (by decide), psrT_setBit_five]

/-! The invariant but for the PC. -/

/-- The clauses of the invariant that do not speak of the PC or the state bit. -/
structure OffPcInv (s : State) : Prop where
  mem : Memory.wf s.mem = true
  imem : Memory.wf s.imem = true
  mask0 : flag 3 s.dbg.wp0.ctlMask = false
  mask1 : flag 3 s.dbg.wp1.ctlMask = false
  ports : (s.cops.map CopPort.num).Nodup

theorem inv_iff (s : State) : Inv s ↔ OffPcInv s ∧ AlignedFor (thumb s) s.pc :=
  ⟨fun h => ⟨⟨h.mem, h.imem, h.mask0, h.mask1, h.ports⟩, (pcAligned_iff s).mp h.pc⟩,
    fun ⟨h, hp⟩ => ⟨h.mem, h.imem, (pcAligned_iff s).mpr hp, h.mask0, h.mask1, h.ports⟩⟩

theorem Inv.offPc {s : State} (h : Inv s) : OffPcInv s := ((inv_iff s).mp h).1

theorem Inv.aligned {s : State} (h : Inv s) : AlignedFor (thumb s) s.pc := ((inv_iff s).mp h).2

/-- An update that keeps both memories, the watchpoint units and the numbers of the ports. -/
theorem offPcInv_congr {s t : State} (hm : t.mem = s.mem) (hi : t.imem = s.imem) (h0 : t.dbg.wp0 = s.dbg.wp0)
    (h1 : t.dbg.wp1 = s.dbg.wp1) (hc : t.cops.map CopPort.num = s.cops.map CopPort.num) : OffPcInv t ↔ OffPcInv s := by
  constructor
  · rintro ⟨m, i, k0, k1, p⟩
    exact ⟨hm ▸ m, hi ▸ i, h0 ▸ k0, h1 ▸ k1, hc ▸ p⟩
  · rintro ⟨m, i, k0, k1, p⟩
    exact ⟨hm ▸ m, hi ▸ i, h0 ▸ k0, h1 ▸ k1, hc ▸ p⟩

/-- An update that keeps the PC and the state bit too. -/
theorem inv_congr {s t : State} (ho : OffPcInv t ↔ OffPcInv s) (hp : t.pc = s.pc) (ht : thumb t = thumb s) :
    Inv t ↔ Inv s := by
  rw [inv_iff, inv_iff, ho, hp, ht]

@[simp] theorem offPcInv_setCpsr (v : Word) (s : State) : OffPcInv (setCpsr v s) ↔ OffPcInv s :=
  offPcInv_congr rfl rfl rfl rfl rfl
@[simp] theorem offPcInv_setT (b : Bool) (s : State) : OffPcInv (setT b s) ↔ OffPcInv s :=
  offPcInv_congr rfl rfl rfl rfl rfl
@[simp] theorem offPcInv_advance (n : Word) (s : State) : OffPcInv (advance n s) ↔ OffPcInv s :=
  offPcInv_congr rfl rfl rfl rfl rfl
@[simp] theorem offPcInv_branchTo (a : Word) (s : State) : OffPcInv (branchTo a s) ↔ OffPcInv s :=
  offPcInv_congr rfl rfl rfl rfl rfl
@[simp] theorem offPcInv_setRegAt (m : ModeBits) (n : Reg) (v : Word) (s : State) :
    OffPcInv (setRegAt m n v s) ↔ OffPcInv s := offPcInv_congr (by simp) (by simp) (by simp) (by simp) (by simp)
@[simp] theorem offPcInv_setReg (n : Reg) (v : Word) (s : State) : OffPcInv (setReg n v s) ↔ OffPcInv s :=
  offPcInv_setRegAt _ _ _ _
@[simp] theorem offPcInv_setSpsrAt (m : ModeBits) (v : Word) (s : State) : OffPcInv (setSpsrAt m v s) ↔ OffPcInv s :=
  offPcInv_congr (by simp) (by simp) (by simp) (by simp) (by simp)
@[simp] theorem offPcInv_setDbgAbt (b : Bool) (s : State) : OffPcInv (setDbgAbt b s) ↔ OffPcInv s :=
  offPcInv_congr rfl rfl rfl rfl rfl
@[simp] theorem offPcInv_latched (a : Access) (v : Word) (s : State) : OffPcInv (latched a v s) ↔ OffPcInv s :=
  offPcInv_congr rfl rfl rfl rfl rfl
@[simp] theorem offPcInv_latchedAbort (a : Access) (v : Word) (s : State) : OffPcInv (latchedAbort a v s) ↔ OffPcInv s :=
  offPcInv_congr (by simp) (by simp) (by simp) (by simp) (by simp)
@[simp] theorem offPcInv_fetched (s : State) : OffPcInv (fetched s) ↔ OffPcInv s := offPcInv_congr rfl rfl rfl rfl rfl
@[simp] theorem offPcInv_prefetched (s : State) : OffPcInv (prefetched s) ↔ OffPcInv s :=
  offPcInv_congr rfl rfl rfl rfl rfl
@[simp] theorem offPcInv_takeException (e : Exception) (link : Word) (s : State) :
    OffPcInv (takeException e link s) ↔ OffPcInv s :=
  offPcInv_congr (by simp) (by simp) (by simp) (by simp) (by simp)

/-- A coprocessor that answers keeps its number. -/
@[simp] theorem map_num_advancePort (cp : BitVec 4) (r : List CopMessage) (ports : List CopPort) :
    (advancePort cp r ports).map CopPort.num = ports.map CopPort.num := by
  induction ports with
  | nil => rfl
  | cons p ps ih =>
    unfold advancePort
    split
    · rfl
    · rw [List.map_cons, ih, List.map_cons]

@[simp] theorem offPcInv_copDone (cp : BitVec 4) (r : List CopMessage) (s : State) :
    OffPcInv (copDone cp r s) ↔ OffPcInv s := offPcInv_congr rfl rfl rfl rfl (by simp)

theorem OffPcInv.writeMem {s : State} (h : OffPcInv s) (z : Size) (a v : Word) : OffPcInv (writeMem z a v s) :=
  ⟨writeMem_wf z a v s h.mem, h.imem, h.mask0, h.mask1, h.ports⟩

theorem OffPcInv.perform {s : State} (h : OffPcInv s) (a : Access) (v : Word) : OffPcInv (perform a v s) := by
  unfold Machine.perform
  split
  · exact h
  · exact h.writeMem _ _ _

/-! The whole invariant. -/

@[simp] theorem thumb_setRegAt (m : ModeBits) (n : Reg) (v : Word) (s : State) : thumb (setRegAt m n v s) = thumb s := by
  simp [thumb]
@[simp] theorem thumb_setSpsrAt (m : ModeBits) (v : Word) (s : State) : thumb (setSpsrAt m v s) = thumb s := by
  simp [thumb]
@[simp] theorem thumb_setCpsr (v : Word) (s : State) : thumb (setCpsr v s) = psrT v := rfl
@[simp] theorem thumb_setT (b : Bool) (s : State) : thumb (setT b s) = b := psrT_setBit_five _ _
@[simp] theorem thumb_latched (a : Access) (v : Word) (s : State) : thumb (latched a v s) = thumb s := rfl
@[simp] theorem thumb_perform (a : Access) (v : Word) (s : State) : thumb (perform a v s) = thumb s := by simp [thumb]
@[simp] theorem thumb_takeException (e : Exception) (link : Word) (s : State) : thumb (takeException e link s) = false := by
  simp [thumb]

@[simp] theorem inv_setRegAt (m : ModeBits) (n : Reg) (v : Word) (s : State) : Inv (setRegAt m n v s) ↔ Inv s :=
  inv_congr (by simp) (by simp) (by simp)
@[simp] theorem inv_setReg (n : Reg) (v : Word) (s : State) : Inv (setReg n v s) ↔ Inv s := inv_setRegAt _ _ _ _
@[simp] theorem inv_setSpsrAt (m : ModeBits) (v : Word) (s : State) : Inv (setSpsrAt m v s) ↔ Inv s :=
  inv_congr (by simp) (by simp) (by simp)
@[simp] theorem inv_setDbgAbt (b : Bool) (s : State) : Inv (setDbgAbt b s) ↔ Inv s := inv_congr (by simp) rfl rfl
@[simp] theorem inv_latched (a : Access) (v : Word) (s : State) : Inv (latched a v s) ↔ Inv s := inv_congr (by simp) rfl rfl
@[simp] theorem inv_copDone (cp : BitVec 4) (r : List CopMessage) (s : State) : Inv (copDone cp r s) ↔ Inv s :=
  inv_congr (by simp) rfl rfl
@[simp] theorem inv_fetched (s : State) : Inv (fetched s) ↔ Inv s := inv_congr (by simp) rfl rfl

theorem Inv.setCpsr {s : State} (h : Inv s) {f : Word} (hf : psrT f = psrT s.cpsr) : Inv (Machine.setCpsr f s) :=
  (inv_congr (offPcInv_setCpsr f s) rfl hf).mpr h

theorem Inv.perform {s : State} (h : Inv s) (a : Access) (v : Word) : Inv (Machine.perform a v s) :=
  (inv_iff _).mpr ⟨h.offPc.perform a v, by simpa using h.aligned⟩

/-- The lengths that keep the PC aligned in the state of `s`: 4, and in Thumb state 2. -/
def StepLength (s : State) (len : Word) : Prop := AlignedFor (thumb s) len

theorem stepLength_four (s : State) : StepLength s 4 := alignedFor_four _

theorem stepLength_two {s : State} (h : thumb s = true) : StepLength s 2 := by
  unfold StepLength AlignedFor
  rw [h]
  decide

theorem Inv.advance {s : State} (h : Inv s) {len : Word} (hl : StepLength s len) : Inv (Machine.advance len s) :=
  (inv_iff _).mpr ⟨by simpa using h.offPc, h.aligned.add hl⟩

theorem Inv.advance_four {s : State} (h : Inv s) : Inv (Machine.advance 4 s) := h.advance (stepLength_four s)

theorem Inv.advance_two {s : State} (h : Inv s) (ht : thumb s = true) : Inv (Machine.advance 2 s) :=
  h.advance (stepLength_two ht)

/-- A branch needs nothing of the PC it leaves. -/
theorem OffPcInv.branchTo {s : State} (h : OffPcInv s) {a : Word} (ha : AlignedFor (thumb s) a) : Inv (branchTo a s) :=
  (inv_iff _).mpr ⟨by simpa using h, ha⟩

/-- Nor does an exception. -/
theorem OffPcInv.takeException {s : State} (h : OffPcInv s) (e : Exception) (link : Word) : Inv (takeException e link s) := by
  refine (inv_iff _).mpr ⟨by simpa using h, ?_⟩
  rw [thumb_takeException, takeException_pc]
  exact (alignedFor_vectorBase s).add (alignedFor_offset e)

theorem OffPcInv.dataAbort {s : State} (h : OffPcInv s) : Inv (dataAbort s) := h.takeException _ _
theorem OffPcInv.prefetchAbort {s : State} (h : OffPcInv s) : Inv (prefetchAbort s) := h.takeException _ _
theorem OffPcInv.undefinedTrap {s : State} (h : OffPcInv s) (n : Word) : Inv (undefinedTrap n s) := h.takeException _ _
theorem OffPcInv.swiTrap {s : State} (h : OffPcInv s) (n : Word) : Inv (swiTrap n s) := h.takeException _ _

end Sys2Proof.Machine

/-! What a meaning answers: every next state meets the invariant. -/

namespace Sys2Proof.Machine

/-- A next state, if the answer is one, meets the invariant. -/
def NextInv (r : Result) : Prop := ∀ t, r = .next t → Inv t

@[simp] theorem nextInv_next (s : State) : NextInv (.next s) ↔ Inv s :=
  ⟨fun h => h s rfl, fun h _ ht => Host.Outcome.next.inj ht ▸ h⟩
@[simp] theorem nextInv_fault (f : Fault) : NextInv (.fault f) := fun _ h => by cases h
@[simp] theorem nextInv_refused (e : Refusal) : NextInv (.refused e) := fun _ h => by cases h

theorem nextInv_ite {c : Prop} [Decidable c] {a b : Result} (ha : c → NextInv a) (hb : ¬ c → NextInv b) :
    NextInv (if c then a else b) := by
  split
  · exact ha ‹_›
  · exact hb ‹_›

/-- A refused form answers no state. -/
theorem nextInv_unless {c : Prop} [Decidable c] {e : Refusal} {r : Result} (h : NextInv r) :
    NextInv (if c then .refused e else r) := nextInv_ite (fun _ => nextInv_refused e) fun _ => h

theorem whenPassed_nextInv {c : Cond} {s : State} {r : Result} (h : Inv s) (hr : NextInv r) : NextInv (whenPassed c s r) :=
  nextInv_ite (fun _ => hr) fun _ => (nextInv_next _).mpr h.advance_four

/-! Writes to the PC. -/

theorem jumpArm_nextInv {s : State} (h : OffPcInv s) (a : Word) : NextInv (jumpArm a s) :=
  nextInv_ite (fun ha => (nextInv_next _).mpr (h.branchTo (AlignedFor.of_arm ha _))) fun _ => nextInv_refused _

theorem branchExchange_nextInv {s : State} (h : OffPcInv s) (a : Word) : NextInv (branchExchange a s) := by
  refine nextInv_ite (fun _ => nextInv_refused _) fun ha => (nextInv_next _).mpr ?_
  refine ((offPcInv_setT _ s).mpr h).branchTo ?_
  rw [thumb_setT]
  exact alignedFor_exchange ha

theorem loadPc_nextInv {s : State} (h : OffPcInv s) (v : Word) : NextInv (loadPc v s) :=
  nextInv_unless (branchExchange_nextInv h v)

theorem exceptionReturn_nextInv {s : State} (h : OffPcInv s) (v : Word) : NextInv (exceptionReturn v s) := by
  unfold exceptionReturn
  split
  · exact nextInv_refused _
  · refine nextInv_ite (fun ht => ?_) fun _ => nextInv_ite (fun hv => ?_) fun _ => nextInv_refused _
    · refine (nextInv_next _).mpr (((offPcInv_setCpsr _ s).mpr h).branchTo ?_)
      rw [thumb_setCpsr, ht]
      exact alignedFor_evenAddr v
    · exact (nextInv_next _).mpr (((offPcInv_setCpsr _ s).mpr h).branchTo (AlignedFor.of_arm hv _))

/-! Data processing, multiplies and status registers. -/

@[simp] theorem psrT_logical (s : State) (v : Word) (b : Shifted) : psrT (logical s v b).2 = psrT s.cpsr :=
  psrT_setLogical _ _ _

@[simp] theorem psrT_arithmetic (s : State) (r : AluResult) : psrT (arithmetic s r).2 = psrT s.cpsr :=
  psrT_setArithmetic _ _

/-- Writing a register and a CPSR that keeps T. -/
theorem Inv.setCpsr_setReg {s : State} (h : Inv s) {f : Word} (hf : psrT f = psrT s.cpsr) (rd : Reg) (v : Word) :
    Inv (Machine.setCpsr f (setReg rd v s)) :=
  Inv.setCpsr ((inv_setReg rd v s).mpr h) (by rw [hf, setReg_cpsr])

theorem psrT_ite_flags (sf : Bool) {f p : Word} (hf : psrT f = psrT p) : psrT (if sf then f else p) = psrT p := by
  cases sf
  · rfl
  · exact hf

theorem finishDataOp_nextInv {s : State} (h : Inv s) (sf : Bool) (rd : Reg) (v : Word) {f : Word}
    (hf : psrT f = psrT s.cpsr) : NextInv (finishDataOp sf rd v f s) := by
  refine nextInv_ite (fun _ => nextInv_ite (fun _ => exceptionReturn_nextInv h.offPc v) fun _ => jumpArm_nextInv h.offPc v)
    fun _ => (nextInv_next _).mpr ?_
  exact (h.setCpsr_setReg (psrT_ite_flags sf hf) rd v).advance_four

theorem dataOp_nextInv {s : State} (h : Inv s) {f : Shifted → Word × Word} (hf : ∀ b, psrT (f b).2 = psrT s.cpsr)
    {c : Cond} {sf ok : Bool} {regs : List Reg} {rd : Reg} {op2 : Operand2} :
    NextInv (dataOp c sf ok regs rd op2 s f) :=
  whenPassed_nextInv h (nextInv_unless (nextInv_unless (finishDataOp_nextInv h sf rd _ (hf _))))

theorem compareOp_nextInv {s : State} (h : Inv s) {f : Shifted → Word} (hf : ∀ b, psrT (f b) = psrT s.cpsr)
    {c : Cond} {ok : Bool} {rn : Reg} {op2 : Operand2} : NextInv (compareOp c ok rn op2 s f) :=
  whenPassed_nextInv h (nextInv_unless (nextInv_unless ((nextInv_next _).mpr (h.setCpsr (hf _)).advance_four)))

/-- An arithmetic compare, whatever sum it takes its flags from. -/
theorem compareOp_arithmetic_nextInv {s : State} (h : Inv s) (sum : Shifted → AluResult) {c : Cond} {ok : Bool} {rn : Reg}
    {op2 : Operand2} : NextInv (compareOp c ok rn op2 s fun b => (arithmetic s (sum b)).2) :=
  compareOp_nextInv h fun b => psrT_arithmetic s (sum b)

theorem multiplyOp_nextInv {s u : State} (h : Inv s) (hu : Inv u) {c : Cond} {ok : Bool} {regs : List Reg} {clash : Bool} :
    NextInv (multiplyOp c ok regs clash s u) :=
  whenPassed_nextInv h (nextInv_unless (nextInv_unless ((nextInv_next _).mpr hu.advance_four)))

theorem Inv.setRegPair {s : State} (h : Inv s) (hi lo : Reg) (v : BitVec 64) : Inv (setRegPair hi lo v s) :=
  (inv_setReg _ _ _).mpr ((inv_setReg _ _ _).mpr h)

theorem Inv.finishMul {s : State} (h : Inv s) (sf : Bool) (rd : Reg) (v : Word) : Inv (finishMul sf rd v s) :=
  h.setCpsr_setReg (psrT_ite_flags sf (psrT_setResultNZ _ _)) rd v

theorem Inv.finishMulLong {s : State} (h : Inv s) (sf : Bool) (hi lo : Reg) (v : BitVec 64) :
    Inv (finishMulLong sf hi lo v s) := by
  refine (h.setRegPair hi lo v).setCpsr ?_
  rw [psrT_ite_flags sf (psrT_setNZ _ _ _), Machine.setRegPair, setReg_cpsr, setReg_cpsr]

theorem Inv.finishSat {s : State} (h : Inv s) (rd : Reg) (x : Int) (b : Bool) : Inv (finishSat rd x b s) :=
  h.setCpsr_setReg (psrT_stickyQ _ _) rd _

theorem Inv.finishAcc {s : State} (h : Inv s) (rd : Reg) (x : Int) : Inv (finishAcc rd x s) :=
  h.setCpsr_setReg (psrT_stickyQ _ _) rd _

theorem msrOp_nextInv {s : State} (h : Inv s) (r : Bool) (mask : BitVec 4) (v : Word) : NextInv (msrOp r mask v s) := by
  refine nextInv_unless (nextInv_ite (fun _ => ?_) fun _ => nextInv_ite (fun hT => ?_) fun _ => nextInv_refused _)
  · split
    · exact nextInv_refused _
    · exact (nextInv_next _).mpr ((inv_setSpsrAt _ _ s).mpr h).advance_four
  · exact (nextInv_next _).mpr (h.setCpsr hT).advance_four

theorem execMrs_nextInv {s : State} (h : Inv s) (c : Cond) (r : Bool) (sbo : BitVec 4) (rd : Reg) (z1 z2 : BitVec 4) :
    NextInv (execMrs c r sbo rd z1 z2 s) := by
  have write : ∀ v, NextInv (.next (advance 4 (setReg rd v s))) := fun v =>
    (nextInv_next _).mpr ((inv_setReg rd v s).mpr h).advance_four
  refine whenPassed_nextInv h (nextInv_unless (nextInv_unless (nextInv_ite (fun _ => ?_) fun _ => write _)))
  split
  · exact nextInv_refused _
  · exact write _

theorem breakpoint_nextInv {s : State} (h : Inv s) : NextInv (breakpoint s) :=
  nextInv_ite (fun _ => nextInv_fault _) fun _ => (nextInv_next _).mpr h.offPc.prefetchAbort

theorem execClz_nextInv {s : State} (h : Inv s) (c : Cond) (sbo1 : BitVec 4) (rd : Reg) (sbo2 : BitVec 4) (rm : Reg) :
    NextInv (execClz c sbo1 rd sbo2 rm s) :=
  whenPassed_nextInv h (nextInv_unless (nextInv_unless
    ((nextInv_next _).mpr (Inv.advance_four ((inv_setReg rd _ s).mpr h)))))

theorem execPld_nextInv {s : State} (h : Inv s) (i u : Bool) (rn : Reg) (a : BitVec 12) : NextInv (execPld i u rn a s) :=
  nextInv_unless (nextInv_unless ((nextInv_next _).mpr h.advance_four))

/-! ARM branches (42_arm_branch.md). -/

theorem alignedFor_armBranchTarget {s : State} (h : Inv s) (imm24 : BitVec 24) :
    AlignedFor (thumb s) (armBranchTarget s imm24) :=
  (h.aligned.add (alignedFor_eight _)).add (alignedFor_words _ _)

theorem execBl_nextInv {s : State} (h : Inv s) (c : Cond) (imm24 : BitVec 24) : NextInv (execBl c imm24 s) := by
  refine whenPassed_nextInv h ((nextInv_next _).mpr (((offPcInv_setReg _ _ s).mpr h.offPc).branchTo ?_))
  rw [thumb_setReg]
  exact alignedFor_armBranchTarget h imm24

theorem execBlxImm_nextInv {s : State} (h : Inv s) (b : Bool) (imm24 : BitVec 24) : NextInv (execBlxImm b imm24 s) := by
  refine (nextInv_next _).mpr (((offPcInv_setT _ _).mpr ((offPcInv_setReg _ _ s).mpr h.offPc)).branchTo ?_)
  have target : AlignedFor true (armBranchTarget s imm24) := by
    have := alignedFor_armBranchTarget h imm24
    cases ht : thumb s
    · exact AlignedFor.of_arm (ht ▸ this) _
    · exact ht ▸ this
  rw [thumb_setT]
  refine target.add ?_
  unfold AlignedFor
  cases b <;> decide

theorem execBlxReg_nextInv {s : State} (h : Inv s) (c : Cond) (sbo : BitVec 12) (rm : Reg) :
    NextInv (execBlxReg c sbo rm s) :=
  whenPassed_nextInv h (nextInv_unless (nextInv_unless
    (branchExchange_nextInv ((offPcInv_setReg _ _ s).mpr h.offPc) _)))

/-! Data accesses. -/

/-- A function of states that changes general registers only: a write-back, a load's register, the restored base. -/
def WritesRegsOnly (f : State → State) : Prop := ∀ s, ∃ r, f s = { s with regs := r }

theorem writesRegsOnly_id : WritesRegsOnly id := fun s => ⟨s.regs, rfl⟩

theorem writesRegsOnly_setRegAt (m : ModeBits) (n : Reg) (v : Word) : WritesRegsOnly (setRegAt m n v) := by
  intro s
  unfold setRegAt
  split
  · exact ⟨s.regs, rfl⟩
  · exact ⟨_, rfl⟩

theorem writesRegsOnly_setReg (n : Reg) (v : Word) : WritesRegsOnly (setReg n v) := fun s =>
  writesRegsOnly_setRegAt (mode s) n v s

theorem writesRegsOnly_singleBase (s : State) (idx : Index) (u : Bool) (rn : Reg) (o : Word) :
    WritesRegsOnly (singleBase s idx u rn o) := by
  intro t
  rcases singleBase_cases s idx u rn o t with ⟨_, e, _⟩ | ⟨_, b, e, _⟩ <;> rw [e]
  · exact writesRegsOnly_id t
  · exact writesRegsOnly_setReg rn b t

theorem WritesRegsOnly.offPcInv {f : State → State} (hf : WritesRegsOnly f) {s : State} : OffPcInv (f s) ↔ OffPcInv s := by
  obtain ⟨r, e⟩ := hf s
  rw [e]
  exact offPcInv_congr rfl rfl rfl rfl rfl

theorem WritesRegsOnly.thumb {f : State → State} (hf : WritesRegsOnly f) (s : State) : thumb (f s) = thumb s := by
  obtain ⟨r, e⟩ := hf s
  rw [e]
  rfl

theorem WritesRegsOnly.inv {f : State → State} (hf : WritesRegsOnly f) {s : State} : Inv (f s) ↔ Inv s := by
  refine inv_congr hf.offPcInv ?_ (hf.thumb s)
  obtain ⟨r, e⟩ := hf s
  rw [e]

/-- A guarded access: it is answered and the instruction goes on, or a Data Abort is taken, or nothing is answered. -/
theorem guarded_nextInv {s : State} (h : OffPcInv s) {a : Access} {v : Word} {complete : State → State}
    {k : State → Result} (hc : OffPcInv (complete (latched a v s))) (hk : NextInv (k (latched a v s))) :
    NextInv (guarded s a v complete k) := by
  have hl : OffPcInv (latched a v s) := (offPcInv_latched a v s).mpr h
  unfold guarded
  dsimp only
  split
  · exact hk
  · exact hk
  · exact (nextInv_next _).mpr ((offPcInv_latchedAbort a v s).mpr h).dataAbort
  · refine (nextInv_next _).mpr ((inv_setDbgAbt _ _).mpr (OffPcInv.dataAbort ?_))
    split
    · exact hc
    · exact hl
  · exact nextInv_fault _
  · exact nextInv_refused _

theorem loadTo_nextInv {s : State} (h : Inv s) {len : Word} (hl : StepLength s len) {base : State → State}
    (hb : WritesRegsOnly base) {a : Access} {rd : Reg} {v : Word} : NextInv (loadTo len a rd v base s) := by
  refine guarded_nextInv h.offPc (by simpa using h.offPc) ((nextInv_next _).mpr (Inv.advance (by simpa [hb.inv] using h) ?_))
  simpa [StepLength, hb.thumb] using hl

theorem storeFrom_nextInv {s : State} (h : Inv s) {len : Word} (hl : StepLength s len) {base : State → State}
    (hb : WritesRegsOnly base) {a : Access} {v : Word} : NextInv (storeFrom len a v base s) := by
  have hs : Inv (perform a v (latched a v s)) := Inv.perform ((inv_latched a v s).mpr h) a v
  refine guarded_nextInv h.offPc hs.offPc ((nextInv_next _).mpr (Inv.advance (hb.inv.mpr hs) ?_))
  simpa [StepLength, hb.thumb] using hl

/-- A load that passes its condition and its register checks (43_arm_load_store.md R295). -/
theorem armLoad_nextInv {s : State} (h : Inv s) {c : Cond} {P : Prop} [Decidable P] {e : Refusal} {a : Access} {rd : Reg}
    {v : Word} {idx : Index} {u : Bool} {rn : Reg} {o : Word} :
    NextInv (whenPassed c s (if P then .refused e else loadTo 4 a rd v (singleBase s idx u rn o) s)) :=
  whenPassed_nextInv h (nextInv_unless (loadTo_nextInv h (stepLength_four s) (writesRegsOnly_singleBase s idx u rn o)))

/-- A store that does. -/
theorem armStore_nextInv {s : State} (h : Inv s) {c : Cond} {P : Prop} [Decidable P] {e : Refusal} {a : Access}
    {v : Word} {idx : Index} {u : Bool} {rn : Reg} {o : Word} :
    NextInv (whenPassed c s (if P then .refused e else storeFrom 4 a v (singleBase s idx u rn o) s)) :=
  whenPassed_nextInv h (nextInv_unless (storeFrom_nextInv h (stepLength_four s) (writesRegsOnly_singleBase s idx u rn o)))

theorem execLdr_nextInv {s : State} (h : Inv s) (c : Cond) (u : Bool) (idx : Index) (rn rd : Reg) (off : Offset2) :
    NextInv (execLdr c u idx rn rd off s) := by
  have hb := writesRegsOnly_singleBase s idx u rn (offset2 s off)
  refine whenPassed_nextInv h (nextInv_unless (nextInv_ite (fun _ => nextInv_ite (fun _ => ?_) fun _ => nextInv_refused _)
    fun _ => loadTo_nextInv h (stepLength_four s) hb))
  exact guarded_nextInv h.offPc (by simpa using h.offPc) (loadPc_nextInv (by simpa [hb.offPcInv] using h.offPc) _)

theorem mode3_nextInv {s : State} (h : Inv s) {r : Result} (hr : NextInv r) {c : Cond} {idx : Index} {rn rd : Reg}
    {off : Offset3} {aligned : Bool} : NextInv (mode3 c idx rn rd off aligned s r) :=
  whenPassed_nextInv h (nextInv_unless (nextInv_unless (nextInv_unless hr)))

/-- A load of mode 3. -/
theorem mode3_load_nextInv {s : State} (h : Inv s) {c : Cond} {idx idx' : Index} {rn rn' rd rd' : Reg} {off : Offset3}
    {aligned u : Bool} {a : Access} {v o : Word} :
    NextInv (mode3 c idx rn rd off aligned s (loadTo 4 a rd' v (singleBase s idx' u rn' o) s)) :=
  mode3_nextInv h (loadTo_nextInv h (stepLength_four s) (writesRegsOnly_singleBase s idx' u rn' o))

theorem execStrh_nextInv {s : State} (h : Inv s) (c : Cond) (u : Bool) (idx : Index) (rn rd : Reg) (off : Offset3) :
    NextInv (execStrh c u idx rn rd off s) :=
  mode3_nextInv h (storeFrom_nextInv h (stepLength_four s) (writesRegsOnly_singleBase _ _ _ _ _))

theorem swapOp_nextInv {s : State} (h : Inv s) {c : Cond} {size : Size} {rn rd : Reg} {sbz : BitVec 4} {rm : Reg}
    {old : Word} : NextInv (swapOp c size rn rd sbz rm old s) := by
  refine whenPassed_nextInv h (nextInv_unless (nextInv_unless (guarded_nextInv h.offPc (by simpa using h.offPc) ?_)))
  refine guarded_nextInv (by simpa using h.offPc) (OffPcInv.perform (by simpa using h.offPc) _ _) ((nextInv_next _).mpr ?_)
  exact ((inv_setReg _ _ _).mpr (Inv.perform (by simpa using h) _ _)).advance_four

/-! Multiple transfers (44_arm_load_store_multiple.md R342, R344). -/

/-- A sequence of transfers keeps the invariant and, if all are made, the state bit. -/
def Transfer.Keeps (s : State) : Transfer → Prop
  | .done t => Inv t ∧ thumb t = thumb s
  | .stopped r => NextInv r

theorem thenDo_nextInv {s : State} {x : Transfer} (hx : x.Keeps s) {k : State → Result}
    (hk : ∀ t, Inv t → thumb t = thumb s → NextInv (k t)) : NextInv (x.thenDo k) := by
  cases x with
  | done t => exact hk t hx.1 hx.2
  | stopped r => exact hx

theorem Transfer.Keeps.of_thumb {s t : State} (ht : thumb t = thumb s) {x : Transfer} (hx : x.Keeps t) : x.Keeps s := by
  cases x with
  | done u => exact ⟨hx.1, hx.2.trans ht⟩
  | stopped r => exact hx

theorem loadList_keeps {put : Reg → Word → State → State} {restore : State → State}
    (hput : ∀ r v, WritesRegsOnly (put r v)) (hres : WritesRegsOnly restore) (regs : List Reg) (a : Word) {s : State}
    (h : Inv s) : (loadList put restore regs a s).Keeps s := by
  induction regs generalizing a s with
  | nil => exact ⟨h, rfl⟩
  | cons r rs ih =>
    have go : ∀ v acc, (loadList put restore rs (a + 4) (put r v (latched acc v s))).Keeps s := fun v acc =>
      (ih (a + 4) ((hput r v).inv.mpr ((inv_latched acc v s).mpr h))).of_thumb ((hput r v).thumb _)
    have hl : ∀ v acc, OffPcInv (latched acc v s) := fun v acc => (offPcInv_latched acc v s).mpr h.offPc
    unfold loadList
    dsimp only
    split
    · exact go _ _
    · exact go _ _
    · exact (nextInv_next _).mpr (hres.offPcInv.mpr ((offPcInv_latchedAbort _ _ s).mpr h.offPc)).dataAbort
    · refine (nextInv_next _).mpr ((inv_setDbgAbt _ _).mpr (hres.offPcInv.mpr ?_).dataAbort)
      split
      · exact (hput _ _).offPcInv.mpr (hl _ _)
      · exact hl _ _
    · exact nextInv_fault _
    · exact nextInv_refused _

theorem storeList_keeps (words : List Word) (a : Word) {s : State} (h : Inv s) : (storeList words a s).Keeps s := by
  induction words generalizing a s with
  | nil => exact ⟨h, rfl⟩
  | cons v vs ih =>
    have hp : ∀ acc, Inv (perform acc v (latched acc v s)) := fun acc => Inv.perform ((inv_latched acc v s).mpr h) acc v
    have go : ∀ acc, (storeList vs (a + 4) (perform acc v (latched acc v s))).Keeps s := fun acc =>
      (ih (a + 4) (hp acc)).of_thumb (by simp)
    unfold storeList
    dsimp only
    split
    · exact go _
    · exact go _
    · exact (nextInv_next _).mpr ((offPcInv_latchedAbort _ _ s).mpr h.offPc).dataAbort
    · refine (nextInv_next _).mpr ((inv_setDbgAbt _ _).mpr (OffPcInv.dataAbort ?_))
      split
      · exact (hp _).offPc
      · exact (offPcInv_latched _ _ s).mpr h.offPc
    · exact nextInv_fault _
    · exact nextInv_refused _

/-- Registers of one mode loaded, the base restored on an abort. -/
theorem loadRegs_keeps (m : ModeBits) (rn : Reg) (b : Word) (regs : List Reg) (a : Word) {s : State} (h : Inv s) :
    (loadList (setRegAt m) (setReg rn b) regs a s).Keeps s :=
  loadList_keeps (writesRegsOnly_setRegAt m) (writesRegsOnly_setReg rn b) regs a h

theorem loadList_setReg_keeps (rn : Reg) (b : Word) (regs : List Reg) (a : Word) {s : State} (h : Inv s) :
    (loadList setReg (setReg rn b) regs a s).Keeps s :=
  loadList_keeps writesRegsOnly_setReg (writesRegsOnly_setReg rn b) regs a h

/-- The marks of the User-bank hazard and of the last exception are nothing to the invariant. -/
theorem inv_marks (b : Bool) (e : Option Exception) (s : State) :
    Inv { s with userBankHazard := b, vectorEntered := e } ↔ Inv s :=
  inv_congr (s := s) (offPcInv_congr rfl rfl rfl rfl rfl) rfl rfl

theorem Inv.advance_hazard {s : State} (h : Inv s) (b : Bool) : Inv { Machine.advance 4 s with userBankHazard := b } :=
  (inv_marks b s.vectorEntered (Machine.advance 4 s)).mpr h.advance_four

/-- An optional base write-back. -/
theorem Inv.ite_setReg {s : State} (h : Inv s) (w : Bool) (n : Reg) (v : Word) : Inv (if w then setReg n v s else s) := by
  split
  · exact (inv_setReg n v s).mpr h
  · exact h

theorem blockLoad_nextInv {s : State} (h : Inv s) {m : BlockMode} {w : Bool} {rn : Reg} {regs : List Reg}
    {k : Word → State → Result} (hk : ∀ v t, Inv t → NextInv (k v t)) : NextInv (blockLoad m w rn regs s k) :=
  thenDo_nextInv (loadList_setReg_keeps _ _ _ _ h) fun _ ht _ => hk _ _ (ht.ite_setReg w rn _)

theorem execLdm1_nextInv {s : State} (h : Inv s) (c : Cond) (m : BlockMode) (w : Bool) (rn : Reg) (list : BitVec 16) :
    NextInv (execLdm1 c m w rn list s) :=
  whenPassed_nextInv h (nextInv_unless (nextInv_unless (blockLoad_nextInv h fun v _ ht =>
    nextInv_ite (fun _ => loadPc_nextInv ht.offPc v) fun _ => (nextInv_next _).mpr ht.advance_four)))

theorem execLdm2_nextInv {s : State} (h : Inv s) (c : Cond) (m : BlockMode) (w : Bool) (rn : Reg) (list : BitVec 15) :
    NextInv (execLdm2 c m w rn list s) :=
  whenPassed_nextInv h (nextInv_unless (nextInv_unless (thenDo_nextInv (loadRegs_keeps _ _ _ _ _ h) fun _ ht _ =>
    (nextInv_next _).mpr (ht.advance_hazard true))))

theorem execLdm3_nextInv {s : State} (h : Inv s) (c : Cond) (m : BlockMode) (w : Bool) (rn : Reg) (list : BitVec 15) :
    NextInv (execLdm3 c m w rn list s) :=
  whenPassed_nextInv h (nextInv_unless (nextInv_unless (blockLoad_nextInv h fun v _ ht =>
    exceptionReturn_nextInv ht.offPc v)))

theorem execStm1_nextInv {s : State} (h : Inv s) (c : Cond) (m : BlockMode) (w : Bool) (rn : Reg) (list : BitVec 16) :
    NextInv (execStm1 c m w rn list s) :=
  whenPassed_nextInv h (nextInv_unless (nextInv_unless (thenDo_nextInv (storeList_keeps _ _ h) fun _ ht _ =>
    (nextInv_next _).mpr (ht.ite_setReg w rn _).advance_four)))

theorem execStm2_nextInv {s : State} (h : Inv s) (c : Cond) (m : BlockMode) (w : Bool) (rn : Reg) (list : BitVec 16) :
    NextInv (execStm2 c m w rn list s) :=
  whenPassed_nextInv h (nextInv_unless (nextInv_unless (thenDo_nextInv (storeList_keeps _ _ h) fun _ ht _ =>
    (nextInv_next _).mpr (ht.advance_hazard true))))

/-- The end of LDRD and STRD: the base write-back after both transfers. -/
theorem pair_nextInv {s : State} {x : Transfer} (hx : x.Keeps s) {base : State → State} (hb : WritesRegsOnly base) :
    NextInv (x.thenDo fun t => .next (advance 4 (base t))) :=
  thenDo_nextInv hx fun _ ht _ => (nextInv_next _).mpr (hb.inv.mpr ht).advance_four

theorem execLdrd_nextInv {s : State} (h : Inv s) (c : Cond) (u : Bool) (idx : Index) (rn rd : Reg) (off : Offset3) :
    NextInv (execLdrd c u idx rn rd off s) :=
  mode3_nextInv h (nextInv_unless (pair_nextInv (loadList_setReg_keeps _ _ _ _ h) (writesRegsOnly_singleBase _ _ _ _ _)))

theorem execStrd_nextInv {s : State} (h : Inv s) (c : Cond) (u : Bool) (idx : Index) (rn rd : Reg) (off : Offset3) :
    NextInv (execStrd c u idx rn rd off s) :=
  mode3_nextInv h (nextInv_unless (pair_nextInv (storeList_keeps _ _ h) (writesRegsOnly_singleBase _ _ _ _ _)))

/-! Coprocessor instructions (46_arm_coprocessor.md). -/

theorem copOp_nextInv {s : State} (h : Inv s) {cp : BitVec 4} {k : Word → Word → List Word → Result}
    (hk : ∀ first second more, NextInv (k first second more)) : NextInv (copOp cp s k) := by
  have hd : Inv (copDone cp [] s) := (inv_copDone cp [] s).mpr h
  unfold copOp
  split
  · exact (nextInv_next _).mpr (hd.offPc.undefinedTrap 4)
  · exact (nextInv_next _).mpr hd
  · exact hk _ _ _

theorem Inv.finishMrc {s : State} (h : Inv s) (rd : Reg) (v : Word) : Inv (finishMrc rd v s) := by
  unfold Machine.finishMrc
  split
  · exact h.setCpsr (psrT_setNZCV _ _ _ _ _)
  · exact (inv_setReg rd v s).mpr h

/-- Changing a debug unit's comms channel. -/
theorem Inv.setDbg {s : State} (h : Inv s) {d : DebugUnit} (h0 : d.wp0 = s.dbg.wp0) (h1 : d.wp1 = s.dbg.wp1) :
    Inv { s with dbg := d } :=
  (inv_congr (s := s) (t := { s with dbg := d }) (offPcInv_congr rfl rfl h0 h1 rfl) rfl rfl).mpr h

theorem cdpOp_nextInv {s : State} (h : Inv s) (cp : BitVec 4) (i : Instr) : NextInv (cdpOp cp i s) :=
  nextInv_unless (copOp_nextInv h fun _ _ _ => (nextInv_next _).mpr ((inv_copDone _ _ s).mpr h).advance_four)

theorem mcr14_nextInv {s : State} (h : Inv s) (op1 : BitVec 3) (crn : BitVec 4) (rd : Reg) (op2 : BitVec 3)
    (crm : BitVec 4) : NextInv (mcr14 op1 crn rd op2 crm s) :=
  nextInv_unless (nextInv_unless (nextInv_ite
    (fun _ => (nextInv_next _).mpr (Inv.advance_four (h.setDbg rfl rfl)))
    fun _ => nextInv_ite (fun _ => (nextInv_next _).mpr ((inv_setDbgAbt _ s).mpr h).advance_four) fun _ => nextInv_refused _))

theorem mcrOp_nextInv {s : State} (h : Inv s) (op1 : BitVec 3) (crn : BitVec 4) (rd : Reg) (cp : BitVec 4)
    (op2 : BitVec 3) (crm : BitVec 4) (i : Instr) : NextInv (mcrOp op1 crn rd cp op2 crm i s) :=
  nextInv_ite (fun _ => mcr14_nextInv h _ _ _ _ _) fun _ => copOp_nextInv h fun _ _ _ =>
    (nextInv_next _).mpr ((inv_copDone _ _ s).mpr h).advance_four

theorem mrc14_nextInv {s : State} (h : Inv s) (op1 : BitVec 3) (crn : BitVec 4) (rd : Reg) (op2 : BitVec 3)
    (crm : BitVec 4) : NextInv (mrc14 op1 crn rd op2 crm s) := by
  have read : Inv { s with dbg := { s.dbg with commsR := false } } := h.setDbg rfl rfl
  exact nextInv_unless (nextInv_ite (fun _ => (nextInv_next _).mpr (h.finishMrc rd _).advance_four) fun _ =>
    nextInv_ite (fun _ => (nextInv_next _).mpr (read.finishMrc rd _).advance_four) fun _ =>
      nextInv_ite (fun _ => (nextInv_next _).mpr (h.finishMrc rd _).advance_four) fun _ => nextInv_refused _)

theorem mrcOp_nextInv {s : State} (h : Inv s) (op1 : BitVec 3) (crn : BitVec 4) (rd : Reg) (cp : BitVec 4)
    (op2 : BitVec 3) (crm : BitVec 4) (i : Instr) : NextInv (mrcOp op1 crn rd cp op2 crm i s) :=
  nextInv_ite (fun _ => mrc14_nextInv h _ _ _ _ _) fun _ => copOp_nextInv h fun _ _ _ =>
    (nextInv_next _).mpr (Inv.finishMrc ((inv_copDone _ _ s).mpr h) rd _).advance_four

theorem Inv.base5 {t : State} (h : Inv t) (u w : Bool) (rn : Reg) (o : BitVec 8) (s : State) : Inv (base5 u w rn o s t) :=
  h.ite_setReg w rn _

theorem ldcOp_nextInv {s : State} (h : Inv s) (p u w : Bool) (rn : Reg) (cp : BitVec 4) (o : BitVec 8) (i : Instr) :
    NextInv (ldcOp p u w rn cp o i s) :=
  nextInv_unless (nextInv_unless (copOp_nextInv h fun _ _ _ => nextInv_unless (thenDo_nextInv
    (loadList_keeps (fun _ _ => writesRegsOnly_id) writesRegsOnly_id _ _ ((inv_copDone _ _ s).mpr h)) fun _ ht _ =>
      (nextInv_next _).mpr (ht.base5 u w rn o s).advance_four)))

theorem stcOp_nextInv {s : State} (h : Inv s) (p u w : Bool) (rn : Reg) (cp : BitVec 4) (o : BitVec 8) (i : Instr) :
    NextInv (stcOp p u w rn cp o i s) :=
  nextInv_unless (nextInv_unless (copOp_nextInv h fun _ _ _ => nextInv_unless (thenDo_nextInv
    (storeList_keeps _ _ ((inv_copDone _ _ s).mpr h)) fun _ ht _ =>
      (nextInv_next _).mpr (ht.base5 u w rn o s).advance_four)))

theorem execMcrr_nextInv {s : State} (h : Inv s) (c : Cond) (rn rd : Reg) (cp opc crm : BitVec 4) :
    NextInv (execMcrr c rn rd cp opc crm s) :=
  whenPassed_nextInv h (nextInv_unless (copOp_nextInv h fun _ _ _ => nextInv_unless
    ((nextInv_next _).mpr ((inv_copDone _ _ s).mpr h).advance_four)))

theorem execMrrc_nextInv {s : State} (h : Inv s) (c : Cond) (rn rd : Reg) (cp opc crm : BitVec 4) :
    NextInv (execMrrc c rn rd cp opc crm s) :=
  whenPassed_nextInv h (nextInv_unless (copOp_nextInv h fun _ _ _ => nextInv_unless (nextInv_unless
    ((nextInv_next _).mpr (Inv.advance_four (by simpa using h))))))

/-! Thumb instructions, which advance by 2 and run in Thumb state. -/

theorem thumbWrite_nextInv {s : State} (h : Inv s) (ht : thumb s = true) {f : Word} (hf : psrT f = psrT s.cpsr)
    (rd : LowReg) (v : Word) : NextInv (thumbWrite rd v f s) :=
  (nextInv_next _).mpr ((h.setCpsr_setReg hf (lowReg rd) v).advance_two (hf.trans ht))

theorem thumbFlags_nextInv {s : State} (h : Inv s) (ht : thumb s = true) {f : Word} (hf : psrT f = psrT s.cpsr) :
    NextInv (thumbFlags f s) := (nextInv_next _).mpr ((h.setCpsr hf).advance_two (hf.trans ht))

theorem thumbLogical_nextInv {s : State} (h : Inv s) (ht : thumb s = true) (rd : LowReg) (v : Word) :
    NextInv (thumbLogical rd v s) := thumbWrite_nextInv h ht (psrT_setResultNZ _ _) rd v

theorem thumbShift_nextInv {s : State} (h : Inv s) (ht : thumb s = true) (rd : LowReg) (r : Shifted) :
    NextInv (thumbShift rd r s) := thumbWrite_nextInv h ht (psrT_setLogical _ _ _) rd _

theorem thumbArithmetic_nextInv {s : State} (h : Inv s) (ht : thumb s = true) (rd : LowReg) (r : AluResult) :
    NextInv (thumbArithmetic rd r s) := thumbWrite_nextInv h ht (psrT_setArithmetic _ _) rd _

theorem compare_nextInv {s : State} (h : Inv s) (ht : thumb s = true) (r : AluResult) :
    NextInv (thumbFlags (setArithmetic s.cpsr r) s) := thumbFlags_nextInv h ht (psrT_setArithmetic _ _)

/-- Writing a register and advancing. -/
theorem setReg_advance_two_nextInv {s : State} (h : Inv s) (ht : thumb s = true) (n : Reg) (v : Word) :
    NextInv (.next (advance 2 (setReg n v s))) :=
  (nextInv_next _).mpr (Inv.advance_two ((inv_setReg n v s).mpr h) (by simpa using ht))

/-- A branch that stays in Thumb state. -/
theorem branchTo_thumb_nextInv {s : State} (h : OffPcInv s) (ht : thumb s = true) {a : Word} (ha : AlignedFor true a) :
    NextInv (.next (branchTo a s)) := (nextInv_next _).mpr (h.branchTo (ht ▸ ha))

theorem highWrite_nextInv {s : State} (h : Inv s) (ht : thumb s = true) (d : Reg) (v : Word) :
    NextInv (highWrite d v s) :=
  nextInv_ite (fun _ => branchTo_thumb_nextInv h.offPc ht (alignedFor_evenAddr v)) fun _ =>
    setReg_advance_two_nextInv h ht d v

theorem alignedFor_thumbBranch {s : State} (h : Inv s) (ht : thumb s = true) (o : Word) :
    AlignedFor true (s.pc + 4 + (o <<< 1)) :=
  ((ht ▸ h.aligned).add (alignedFor_four true)).add (alignedFor_halfwords o)

theorem execTBCond_nextInv {s : State} (h : Inv s) (ht : thumb s = true) (c : Cond) (imm : BitVec 8) :
    NextInv (execTBCond c imm s) :=
  nextInv_ite (fun _ => branchTo_thumb_nextInv h.offPc ht (alignedFor_thumbBranch h ht _)) fun _ =>
    (nextInv_next _).mpr (h.advance_two ht)

theorem execTBlxReg_nextInv {s : State} (h : Inv s) (rs : Reg) (sbz : BitVec 3) : NextInv (execTBlxReg rs sbz s) :=
  nextInv_unless (nextInv_unless (branchExchange_nextInv ((offPcInv_setReg _ _ s).mpr h.offPc) _))

theorem execTBlxLow_nextInv {s : State} (h : Inv s) (o : BitVec 10) : NextInv (execTBlxLow o s) := by
  refine (nextInv_next _).mpr (((offPcInv_setT _ _).mpr ((offPcInv_setReg _ _ s).mpr h.offPc)).branchTo ?_)
  rw [thumb_setT]
  exact alignedFor_wordAddr _

theorem execTBlLow_nextInv {s : State} (h : Inv s) (ht : thumb s = true) (o : BitVec 11) : NextInv (execTBlLow o s) :=
  branchTo_thumb_nextInv ((offPcInv_setReg _ _ s).mpr h.offPc) ((thumb_setReg _ _ s).trans ht) (alignedFor_evenAddr _)

theorem thumbLoad_nextInv {s : State} (h : Inv s) (ht : thumb s = true) (z : Size) (a : Word) (rd : LowReg) (v : Word) :
    NextInv (thumbLoad z a rd v s) := loadTo_nextInv h (stepLength_two ht) writesRegsOnly_id

theorem thumbStore_nextInv {s : State} (h : Inv s) (ht : thumb s = true) (z : Size) (a : Word) (rd : LowReg) :
    NextInv (thumbStore z a rd s) := storeFrom_nextInv h (stepLength_two ht) writesRegsOnly_id

theorem thumbHalf_nextInv {r : Result} (hr : NextInv r) (a : Word) : NextInv (thumbHalf a r) :=
  nextInv_ite (fun _ => hr) fun _ => nextInv_refused _

theorem thumbBlockStore_nextInv {s : State} (h : Inv s) (ht : thumb s = true) (base : Reg) (a b : Word)
    (words : List Word) : NextInv (thumbBlockStore base a b words s) :=
  thenDo_nextInv (storeList_keeps words a h) fun _ hu hT => setReg_advance_two_nextInv hu (hT.trans ht) base b

theorem execTPop_nextInv {s : State} (h : Inv s) (ht : thumb s = true) (r : Bool) (list : BitVec 8) :
    NextInv (execTPop r list s) :=
  nextInv_unless (thenDo_nextInv (loadList_setReg_keeps _ _ _ _ h) fun _ hu hT => nextInv_ite
    (fun _ => loadPc_nextInv ((offPcInv_setReg _ _ _).mpr hu.offPc) _) fun _ =>
      setReg_advance_two_nextInv hu (hT.trans ht) _ _)

theorem execTLdmia_nextInv {s : State} (h : Inv s) (ht : thumb s = true) (rb : LowReg) (list : BitVec 8) :
    NextInv (execTLdmia rb list s) :=
  nextInv_unless (nextInv_unless (thenDo_nextInv (loadList_setReg_keeps _ _ _ _ h) fun _ hu hT =>
    setReg_advance_two_nextInv hu (hT.trans ht) _ _))

end Sys2Proof.Machine

/-! Every instruction. -/

namespace Sys2Proof.Machine

/-- An instruction keeps the invariant. A Thumb instruction, which advances by 2, does so in Thumb state only; an ARM
instruction would in either. -/
theorem exec_nextInv {s : State} (h : Inv s) (i : Instr) (hT : i.isThumb = true → thumb s = true) :
    NextInv (exec i s) := by
  cases i with
  | pld i u rn addrMode => exact execPld_nextInv h i u rn addrMode
  | blxImm => exact execBlxImm_nextInv h _ _
  | unallocUncondCop => exact nextInv_refused _
  | ldc2 => exact ldcOp_nextInv h _ _ _ _ _ _ _
  | stc2 => exact stcOp_nextInv h _ _ _ _ _ _ _
  | cdp2 => exact cdpOp_nextInv h _ _
  | mcr2 => exact nextInv_unless (mcrOp_nextInv h _ _ _ _ _ _ _)
  | mrc2 => exact nextInv_unless (mrcOp_nextInv h _ _ _ _ _ _ _)
  | unallocUncond => exact nextInv_refused _
  | nop => exact (nextInv_next _).mpr h.advance_four
  | mul => exact multiplyOp_nextInv h (h.finishMul _ _ _)
  | mla => exact multiplyOp_nextInv h (h.finishMul _ _ _)
  | umull => exact multiplyOp_nextInv h (h.finishMulLong _ _ _ _)
  | umlal => exact multiplyOp_nextInv h (h.finishMulLong _ _ _ _)
  | smull => exact multiplyOp_nextInv h (h.finishMulLong _ _ _ _)
  | smlal => exact multiplyOp_nextInv h (h.finishMulLong _ _ _ _)
  | swp => exact swapOp_nextInv h
  | swpb => exact swapOp_nextInv h
  | unallocMulSwp => exact whenPassed_nextInv h (nextInv_refused _)
  | strh => exact execStrh_nextInv h _ _ _ _ _ _
  | ldrd => exact execLdrd_nextInv h _ _ _ _ _ _
  | strd => exact execStrd_nextInv h _ _ _ _ _ _
  | ldrh => exact mode3_load_nextInv h
  | ldrsb => exact mode3_load_nextInv h
  | ldrsh => exact mode3_load_nextInv h
  | mrs => exact execMrs_nextInv h _ _ _ _ _ _
  | msrReg => exact whenPassed_nextInv h (nextInv_unless (nextInv_unless (msrOp_nextInv h _ _ _)))
  | bx => exact whenPassed_nextInv h (nextInv_unless (branchExchange_nextInv h.offPc _))
  | blxReg => exact execBlxReg_nextInv h _ _ _
  | clz => exact execClz_nextInv h _ _ _ _ _
  | qadd => exact multiplyOp_nextInv h (h.finishSat _ _ _)
  | qsub => exact multiplyOp_nextInv h (h.finishSat _ _ _)
  | qdadd => exact multiplyOp_nextInv h (h.finishSat _ _ _)
  | qdsub => exact multiplyOp_nextInv h (h.finishSat _ _ _)
  | bkpt => exact whenPassed_nextInv h (nextInv_ite (fun _ => breakpoint_nextInv h) fun _ => nextInv_refused _)
  | smlaXY => exact multiplyOp_nextInv h (h.finishAcc _ _)
  | smlawY => exact multiplyOp_nextInv h (h.finishAcc _ _)
  | smulwY => exact multiplyOp_nextInv h ((inv_setReg _ _ s).mpr h)
  | smlalXY => exact multiplyOp_nextInv h (h.setRegPair _ _ _)
  | smulXY => exact multiplyOp_nextInv h ((inv_setReg _ _ s).mpr h)
  | unallocMisc => exact whenPassed_nextInv h (nextInv_refused _)
  | msrImm => exact whenPassed_nextInv h (nextInv_unless (msrOp_nextInv h _ _ _))
  | unalloc00110 => exact whenPassed_nextInv h (nextInv_refused _)
  | armAnd => exact dataOp_nextInv h fun _ => psrT_logical _ _ _
  | armEor => exact dataOp_nextInv h fun _ => psrT_logical _ _ _
  | armSub => exact dataOp_nextInv h fun _ => psrT_arithmetic _ _
  | armRsb => exact dataOp_nextInv h fun _ => psrT_arithmetic _ _
  | armAdd => exact dataOp_nextInv h fun _ => psrT_arithmetic _ _
  | armAdc => exact dataOp_nextInv h fun _ => psrT_arithmetic _ _
  | armSbc => exact dataOp_nextInv h fun _ => psrT_arithmetic _ _
  | armRsc => exact dataOp_nextInv h fun _ => psrT_arithmetic _ _
  | armTst => exact compareOp_nextInv h fun _ => psrT_logical _ _ _
  | armTeq => exact compareOp_nextInv h fun _ => psrT_logical _ _ _
  | armCmp c rn sbz op2 => exact compareOp_arithmetic_nextInv h fun b => addWithCarry (armReg s rn) (~~~b.value) true
  | armCmn c rn sbz op2 => exact compareOp_arithmetic_nextInv h fun b => addWithCarry (armReg s rn) b.value false
  | armOrr => exact dataOp_nextInv h fun _ => psrT_logical _ _ _
  | armMov => exact dataOp_nextInv h fun _ => psrT_logical _ _ _
  | armBic => exact dataOp_nextInv h fun _ => psrT_logical _ _ _
  | armMvn => exact dataOp_nextInv h fun _ => psrT_logical _ _ _
  | undefArm => exact whenPassed_nextInv h ((nextInv_next _).mpr (h.offPc.undefinedTrap 4))
  | ldrt => exact armLoad_nextInv h
  | ldrbt => exact armLoad_nextInv h
  | strt => exact armStore_nextInv h
  | strbt => exact armStore_nextInv h
  | ldr => exact execLdr_nextInv h _ _ _ _ _ _
  | ldrb => exact armLoad_nextInv h
  | str => exact armStore_nextInv h
  | strb => exact armStore_nextInv h
  | ldm1 => exact execLdm1_nextInv h _ _ _ _ _
  | ldm2 => exact execLdm2_nextInv h _ _ _ _ _
  | ldm3 => exact execLdm3_nextInv h _ _ _ _ _
  | stm1 => exact execStm1_nextInv h _ _ _ _ _
  | stm2 => exact execStm2_nextInv h _ _ _ _ _
  | b => exact whenPassed_nextInv h ((nextInv_next _).mpr (h.offPc.branchTo (alignedFor_armBranchTarget h _)))
  | bl => exact execBl_nextInv h _ _
  | mcrr => exact execMcrr_nextInv h _ _ _ _ _ _
  | mrrc => exact execMrrc_nextInv h _ _ _ _ _ _
  | unallocCop => exact whenPassed_nextInv h (nextInv_refused _)
  | ldc => exact whenPassed_nextInv h (ldcOp_nextInv h _ _ _ _ _ _ _)
  | stc => exact whenPassed_nextInv h (stcOp_nextInv h _ _ _ _ _ _ _)
  | cdp => exact whenPassed_nextInv h (cdpOp_nextInv h _ _)
  | mcr => exact whenPassed_nextInv h (mcrOp_nextInv h _ _ _ _ _ _ _)
  | mrc => exact whenPassed_nextInv h (mrcOp_nextInv h _ _ _ _ _ _ _)
  | armSwi => exact whenPassed_nextInv h ((nextInv_next _).mpr (h.offPc.swiTrap 4))
  | tLslImm => exact thumbShift_nextInv h (hT rfl) _ _
  | tLsrImm => exact thumbShift_nextInv h (hT rfl) _ _
  | tAsrImm => exact thumbShift_nextInv h (hT rfl) _ _
  | tAddReg => exact thumbArithmetic_nextInv h (hT rfl) _ _
  | tSubReg => exact thumbArithmetic_nextInv h (hT rfl) _ _
  | tAddImm3 => exact thumbArithmetic_nextInv h (hT rfl) _ _
  | tSubImm3 => exact thumbArithmetic_nextInv h (hT rfl) _ _
  | tMovImm => exact thumbLogical_nextInv h (hT rfl) _ _
  | tCmpImm => exact compare_nextInv h (hT rfl) _
  | tAddImm8 => exact thumbArithmetic_nextInv h (hT rfl) _ _
  | tSubImm8 => exact thumbArithmetic_nextInv h (hT rfl) _ _
  | tAnd => exact thumbLogical_nextInv h (hT rfl) _ _
  | tEor => exact thumbLogical_nextInv h (hT rfl) _ _
  | tLslReg => exact thumbShift_nextInv h (hT rfl) _ _
  | tLsrReg => exact thumbShift_nextInv h (hT rfl) _ _
  | tAsrReg => exact thumbShift_nextInv h (hT rfl) _ _
  | tAdc => exact thumbArithmetic_nextInv h (hT rfl) _ _
  | tSbc => exact thumbArithmetic_nextInv h (hT rfl) _ _
  | tRor => exact thumbShift_nextInv h (hT rfl) _ _
  | tTst => exact thumbFlags_nextInv h (hT rfl) (psrT_setResultNZ _ _)
  | tNeg => exact thumbArithmetic_nextInv h (hT rfl) _ _
  | tCmpReg => exact compare_nextInv h (hT rfl) _
  | tCmn => exact compare_nextInv h (hT rfl) _
  | tOrr => exact thumbLogical_nextInv h (hT rfl) _ _
  | tMul => exact nextInv_unless (thumbLogical_nextInv h (hT rfl) _ _)
  | tBic => exact thumbLogical_nextInv h (hT rfl) _ _
  | tMvn => exact thumbLogical_nextInv h (hT rfl) _ _
  | tAddHigh => exact nextInv_unless (highWrite_nextInv h (hT rfl) _ _)
  | tCmpHigh => exact nextInv_unless (compare_nextInv h (hT rfl) _)
  | tMovHigh => exact nextInv_unless (highWrite_nextInv h (hT rfl) _ _)
  | tBx => exact nextInv_unless (branchExchange_nextInv h.offPc _)
  | tBlxReg => exact execTBlxReg_nextInv h _ _
  | tLdrPc => exact thumbLoad_nextInv h (hT rfl) _ _ _ _
  | tStrReg => exact thumbStore_nextInv h (hT rfl) _ _ _
  | tStrhReg => exact thumbHalf_nextInv (thumbStore_nextInv h (hT rfl) _ _ _) _
  | tStrbReg => exact thumbStore_nextInv h (hT rfl) _ _ _
  | tLdrsb => exact thumbLoad_nextInv h (hT rfl) _ _ _ _
  | tLdrReg => exact thumbLoad_nextInv h (hT rfl) _ _ _ _
  | tLdrhReg => exact thumbHalf_nextInv (thumbLoad_nextInv h (hT rfl) _ _ _ _) _
  | tLdrbReg => exact thumbLoad_nextInv h (hT rfl) _ _ _ _
  | tLdrsh => exact thumbHalf_nextInv (thumbLoad_nextInv h (hT rfl) _ _ _ _) _
  | tStrImm => exact thumbStore_nextInv h (hT rfl) _ _ _
  | tLdrImm => exact thumbLoad_nextInv h (hT rfl) _ _ _ _
  | tStrbImm => exact thumbStore_nextInv h (hT rfl) _ _ _
  | tLdrbImm => exact thumbLoad_nextInv h (hT rfl) _ _ _ _
  | tStrhImm => exact thumbHalf_nextInv (thumbStore_nextInv h (hT rfl) _ _ _) _
  | tLdrhImm => exact thumbHalf_nextInv (thumbLoad_nextInv h (hT rfl) _ _ _ _) _
  | tStrSp => exact thumbStore_nextInv h (hT rfl) _ _ _
  | tLdrSp => exact thumbLoad_nextInv h (hT rfl) _ _ _ _
  | tAddPc => exact setReg_advance_two_nextInv h (hT rfl) _ _
  | tAddSp => exact setReg_advance_two_nextInv h (hT rfl) _ _
  | tIncSp => exact setReg_advance_two_nextInv h (hT rfl) _ _
  | tDecSp => exact setReg_advance_two_nextInv h (hT rfl) _ _
  | tPush => exact nextInv_unless (thumbBlockStore_nextInv h (hT rfl) _ _ _ _)
  | tPop => exact execTPop_nextInv h (hT rfl) _ _
  | tBkpt => exact breakpoint_nextInv h
  | tUndef1011 => exact (nextInv_next _).mpr (h.offPc.undefinedTrap 2)
  | tStmia => exact nextInv_unless (thumbBlockStore_nextInv h (hT rfl) _ _ _ _)
  | tLdmia => exact execTLdmia_nextInv h (hT rfl) _ _
  | tUndefDE => exact (nextInv_next _).mpr (h.offPc.undefinedTrap 2)
  | tSwi => exact (nextInv_next _).mpr (h.offPc.swiTrap 2)
  | tBCond => exact execTBCond_nextInv h (hT rfl) _ _
  | tB => exact branchTo_thumb_nextInv h.offPc (hT rfl) (alignedFor_thumbBranch h (hT rfl) _)
  | tBlxLow => exact execTBlxLow_nextInv h _
  | tUndef11101 => exact (nextInv_next _).mpr (h.offPc.undefinedTrap 2)
  | tBlHigh => exact setReg_advance_two_nextInv h (hT rfl) _ _
  | tBlLow => exact execTBlLow_nextInv h (hT rfl) _

/-! The instruction boundary (60_exceptions.md R620). -/

/-- A Thumb instruction is fetched in Thumb state only. -/
theorem thumb_of_fetchInstr {s : State} (h : (fetchInstr s).isThumb = true) : thumb s = true := by
  by_contra ht
  have arm : fetchInstr s = decodeArm (BitVec.ofNat 32
      (assemble s.pins.bigEndian (memGetBytes (fetchMem s) s.pc.toNat (fetchLength s)))) := by
    simp [fetchInstr, codeOfBytes, ht, decode]
  rw [arm, decodeArm_isThumb] at h
  cases h

theorem runInstr_nextInv {s : State} (h : Inv s) (i : Instr) (hT : i.isThumb = true → thumb s = true) :
    NextInv (runInstr i s) :=
  nextInv_unless (exec_nextInv ((inv_marks _ _ s).mpr h) i hT)

theorem fetchAndRun_nextInv {s : State} (h : Inv s) : NextInv (fetchAndRun s) := by
  have run : NextInv (if staleInstr s then .refused .stalePrefetch else runInstr (fetchInstr s) (fetched s)) :=
    nextInv_unless (runInstr_nextInv ((inv_fetched s).mpr h) _ thumb_of_fetchInstr)
  unfold fetchAndRun
  split
  · exact (nextInv_next _).mpr ((offPcInv_prefetched s).mpr h.offPc).prefetchAbort
  · exact (nextInv_next _).mpr ((inv_setDbgAbt _ _).mpr ((offPcInv_fetched s).mpr h.offPc).prefetchAbort)
  · exact nextInv_fault _
  · exact nextInv_refused _
  · exact run
  · exact run

theorem boundary_nextInv {s : State} (h : Inv s) : NextInv (boundary s) := by
  have interrupt : ∀ e link, Inv (takeException e link (prefetched s)) := fun e link =>
    ((offPcInv_prefetched s).mpr h.offPc).takeException e link
  unfold boundary
  refine nextInv_ite (fun _ => nextInv_fault _) fun _ => nextInv_unless (nextInv_ite (fun _ => nextInv_fault _) fun _ => ?_)
  refine nextInv_ite (fun _ => (nextInv_next _).mpr (interrupt _ _)) fun _ => ?_
  exact nextInv_ite (fun _ => (nextInv_next _).mpr (interrupt _ _)) fun _ => fetchAndRun_nextInv h

/-! What happens outside the core between two instructions (00_scope.md R17). -/

/-- Bit 3 of both watchpoint control masks is clear (10_state.md R70). -/
structure MasksClear (d : DebugUnit) : Prop where
  unit0 : flag 3 d.wp0.ctlMask = false
  unit1 : flag 3 d.wp1.ctlMask = false

/-- What is written to a control mask has bit 3 clear. -/
theorem flag_three_masked (x : BitVec 8) : flag 3 (x &&& 0b11110111) = false := by simp [flag]

theorem masksClear_pulsed (tick : Nat) : MasksClear (.pulsed tick) := ⟨flag_three_masked _, flag_three_masked _⟩

theorem Watchpoint.write_mask {w : Watchpoint} (h : flag 3 w.ctlMask = false) (reg : BitVec 3) (v : Word) :
    flag 3 (w.write reg v).ctlMask = false := by
  unfold Watchpoint.write
  split_ifs
  · exact h
  · exact h
  · exact h
  · exact h
  · exact h
  · exact flag_three_masked _
  · exact h

theorem MasksClear.write {d : DebugUnit} (h : MasksClear d) (addr : BitVec 5) (v : Word) : MasksClear (d.write addr v) := by
  obtain ⟨h0, h1⟩ := h
  unfold DebugUnit.write
  split_ifs
  · exact ⟨h0, h1⟩
  · exact ⟨h0, h1⟩
  · exact ⟨h0, h1⟩
  · exact ⟨h0, h1⟩
  · exact ⟨Watchpoint.write_mask h0 _ _, h1⟩
  · exact ⟨h0, Watchpoint.write_mask h1 _ _⟩
  · exact ⟨h0, h1⟩

theorem MasksClear.read {d : DebugUnit} (h : MasksClear d) (addr : BitVec 5) : MasksClear (d.read addr) := by
  unfold DebugUnit.read
  split
  · exact ⟨h.unit0, h.unit1⟩
  · exact h

theorem Inv.scan2 {s : State} (h : Inv s) (bits : BitVec 38) : Inv (scan2 bits s) := by
  have held : MasksClear { s.dbg with held := false } := ⟨h.mask0, h.mask1⟩
  unfold Machine.scan2
  dsimp only
  split
  · have written := held.write (fld 32 5 bits) (fld 0 32 bits)
    exact ⟨h.mem, h.imem, h.pc, written.unit0, written.unit1, h.ports⟩
  · have read := held.read (fld 32 5 bits)
    exact ⟨h.mem, h.imem, h.pc, read.unit0, read.unit1, h.ports⟩

theorem Inv.tapData {s : State} (h : Inv s) (bits : BitVec 38) : Inv (tapData bits s) := by
  unfold Machine.tapData
  split_ifs
  · exact h.setDbg rfl rfl
  · exact h.scan2 bits
  · exact h

theorem Inv.loadTap {s t : State} (h : Inv s) {code : BitVec 4} (ht : loadTap code s = some t) : Inv t := by
  unfold Machine.loadTap at ht
  split at ht
  · cases ht
  · obtain rfl := Option.some.inj ht
    exact h.setDbg rfl rfl

theorem nodup_attachPort (port : CopPort) {ports : List CopPort} (h : (ports.map CopPort.num).Nodup) :
    ((attachPort port ports).map CopPort.num).Nodup := by
  refine List.nodup_cons.mpr ⟨fun hm => ?_, h.sublist (List.filter_sublist.map _)⟩
  obtain ⟨p, hp, hn⟩ := List.mem_map.mp hm
  simp [hn] at hp

/-- What a reset leaves when it abandons an instruction that would have led to `t`. -/
theorem OffPcInv.abandoned {s t : State} (h : OffPcInv s) (ht : OffPcInv t) : OffPcInv (abandoned s t) := by
  have hm : Memory.wf (Machine.abandoned s t).mem = true := wf_mixMem _ h.mem ht.mem
  cases hc : Config.resetTransferred s.tick
  · have e : (Machine.abandoned s t).dbg = s.dbg ∧ (Machine.abandoned s t).cops = s.cops := by
      simp [Machine.abandoned, hc]
    exact ⟨hm, h.imem, e.1 ▸ h.mask0, e.1 ▸ h.mask1, e.2 ▸ h.ports⟩
  · have e : (Machine.abandoned s t).dbg = t.dbg ∧ (Machine.abandoned s t).cops = t.cops := by
      simp [Machine.abandoned, hc]
    exact ⟨hm, h.imem, e.1 ▸ ht.mask0, e.1 ▸ ht.mask1, e.2 ▸ ht.ports⟩

/-- A reset aligns the PC and enters ARM state. -/
theorem OffPcInv.resetMachine {s : State} (h : OffPcInv s) : Inv (resetMachine s) := by
  have ho : OffPcInv (Machine.resetMachine s) ↔ OffPcInv s :=
    offPcInv_congr (by simp) (by simp) (by simp) (by simp) (by simp)
  refine (inv_iff _).mpr ⟨ho.mpr h, ?_⟩
  rw [resetMachine_pc]
  exact (alignedFor_vectorBase s).of_arm _

theorem Inv.resetDuringRun {s : State} (h : Inv s) : Inv (resetDuringRun s) := by
  rcases resetDuringRun_cases s with ⟨u, hu, e⟩ | ⟨_, e⟩ <;> rw [e]
  · exact (h.offPc.abandoned (boundary_nextInv h u hu).offPc).resetMachine
  · exact h.offPc.resetMachine

theorem applyEvent_nextInv {s : State} (h : Inv s) (e : InputEvent) : NextInv (applyEvent e s) := by
  cases e with
  | reset => exact (nextInv_next _).mpr h.resetDuringRun
  | nFIQ high => exact (nextInv_next _).mpr ⟨h.mem, h.imem, h.pc, h.mask0, h.mask1, h.ports⟩
  | nIRQ high => exact (nextInv_next _).mpr ⟨h.mem, h.imem, h.pc, h.mask0, h.mask1, h.ports⟩
  | edbgrq high => exact (nextInv_next _).mpr ⟨h.mem, h.imem, h.pc, h.mask0, h.mask1, h.ports⟩
  | dbgExt levels => exact (nextInv_next _).mpr ⟨h.mem, h.imem, h.pc, h.mask0, h.mask1, h.ports⟩
  | debugReset =>
    have pulsed := masksClear_pulsed s.tick
    exact (nextInv_next _).mpr ⟨h.mem, h.imem, h.pc, pulsed.unit0, pulsed.unit1, h.ports⟩
  | tapInstruction code =>
    unfold applyEvent
    dsimp only
    split
    · exact (nextInv_next _).mpr (h.loadTap ‹_›)
    · exact nextInv_refused _
  | tapData bits => exact (nextInv_next _).mpr (h.tapData bits)
  | memoryByte addr value =>
    exact (nextInv_next _).mpr ⟨wf_memPut_word _ addr value h.mem, h.imem, h.pc, h.mask0, h.mask1, h.ports⟩
  | instructionByte addr value =>
    exact (nextInv_next _).mpr ⟨h.mem, wf_memPut_word _ addr value h.imem, h.pc, h.mask0, h.mask1, h.ports⟩
  | accessRules rules => exact (nextInv_next _).mpr ⟨h.mem, h.imem, h.pc, h.mask0, h.mask1, h.ports⟩
  | coprocessor port =>
    exact (nextInv_next _).mpr ⟨h.mem, h.imem, h.pc, h.mask0, h.mask1, nodup_attachPort port h.ports⟩

theorem applyEvents_nextInv {s : State} (h : Inv s) (es : List InputEvent) : NextInv (applyEvents es s) := by
  induction es generalizing s with
  | nil => exact (nextInv_next s).mpr h
  | cons e es ih =>
    unfold applyEvents
    split
    · exact ih (applyEvent_nextInv h e _ ‹_›)
    · exact nextInv_fault _
    · exact nextInv_refused _

theorem takeInputs_nextInv {s : State} (h : Inv s) : NextInv (takeInputs s) := by
  have ticked : Inv { s with inputs := s.inputs.tail, tick := s.tick + 1 } :=
    ⟨h.mem, h.imem, h.pc, h.mask0, h.mask1, h.ports⟩
  exact applyEvents_nextInv ticked _

theorem step_nextInv {s : State} (h : Inv s) : NextInv (step s) := by
  unfold step
  split
  · exact boundary_nextInv (takeInputs_nextInv h _ ‹_›)
  · exact nextInv_fault _
  · exact nextInv_refused _

end Sys2Proof.Machine

section
open Sys2Proof Sys2Proof.Machine

/-- Settles O7: the inputs, then the boundary, keep the invariant; the boundary by the case split of `exec_nextInv`. -/
theorem stepKeepsInvariant : Obligations.StepKeepsInvariant :=
  fun _ t h ht => step_nextInv h t ht

end

/-! The byte memory read back (20_memory.md R86, R93, R96): what bytes assemble to in each order, what the bytes of a
value assemble to, and from these what a read answers. -/

namespace Sys2Proof.Machine

/-- Bytes in little-endian order are the reversed bytes in big-endian order. -/
theorem assemble_little (bytes : List Byte) : assemble false bytes = assemble true bytes.reverse := rfl

/-- One more byte at the low end, as `assemble` puts it there. -/
theorem toNat_append_byte {n : Nat} (x : BitVec n) (b : Byte) : (x ++ b).toNat = x.toNat * 256 + b.toNat := by
  rw [BitVec.toNat_append, ← Nat.shiftLeft_add_eq_or_of_lt b.isLt, Nat.shiftLeft_eq]

theorem ofNat_toNat_eq_zext {n : Nat} (x : BitVec n) : BitVec.ofNat 32 x.toNat = zext x := BitVec.ofNat_toNat 32 x

theorem assemble_byte (big : Bool) (b : Byte) : assemble big [b] = b.toNat := by
  cases big <;> simp [assemble]

theorem assemble_half (hi lo : Byte) : assemble true [hi, lo] = (hi ++ lo).toNat := by
  simp [assemble, toNat_append_byte]

theorem assemble_word (b3 b2 b1 b0 : Byte) : assemble true [b3, b2, b1, b0] = (b3 ++ b2 ++ b1 ++ b0).toNat := by
  simp only [toNat_append_byte]
  simp [assemble]

theorem ofNat_assemble_half (hi lo : Byte) : BitVec.ofNat 32 (assemble true [hi, lo]) = zext (hi ++ lo) := by
  rw [assemble_half, ofNat_toNat_eq_zext]

theorem ofNat_assemble_word (b3 b2 b1 b0 : Byte) :
    BitVec.ofNat 32 (assemble true [b3, b2, b1, b0]) = b3 ++ b2 ++ b1 ++ b0 := by
  rw [assemble_word, ofNat_toNat_eq_zext, zext, BitVec.setWidth_eq]

/-- The order of the bytes cancels: a value written and read in one order is the value. -/
theorem assemble_laneBytes (big : Bool) (z : Size) (v : Word) :
    assemble big (laneBytes big z v) = assemble true (laneBytes true z v) := by
  cases big with
  | true => rfl
  | false => cases z <;> rfl

/-- Two adjacent fields, the upper before the lower, are one field. -/
theorem fld_append_fld {N : Nat} (s l m : Nat) (w : BitVec N) : fld (s + l) m w ++ fld s l w = fld s (m + l) w :=
  BitVec.extractLsb'_append_extractLsb'_eq_extractLsb' rfl

/-- The bytes of a value of some size hold its low bits. -/
theorem assemble_laneBytes_toNat (big : Bool) (z : Size) (v : Word) :
    assemble big (laneBytes big z v) = (fld 0 (8 * z.bytes) v).toNat := by
  rw [assemble_laneBytes]
  cases z with
  | byte => exact assemble_byte true (fld 0 8 v)
  | half =>
    have joined : fld 8 8 v ++ fld 0 8 v = fld 0 16 v := fld_append_fld 0 8 8 v
    exact (assemble_half _ _).trans (congrArg BitVec.toNat joined)
  | word =>
    have upper : fld 24 8 v ++ fld 16 8 v = fld 16 16 v := fld_append_fld 16 8 8 v
    have middle : fld 16 16 v ++ fld 8 8 v = fld 8 24 v := fld_append_fld 8 8 16 v
    have joined : fld 8 24 v ++ fld 0 8 v = fld 0 32 v := fld_append_fld 0 8 24 v
    refine (assemble_word _ _ _ _).trans (congrArg BitVec.toNat ?_)
    rw [upper, middle, joined]
    rfl

/-- A low field, zero-extended, is the word under the mask of its width. -/
theorem zext_fld_zero (n : Nat) (v : Word) : zext (fld 0 n v) = v &&& (BitVec.allOnes n).setWidth 32 := by
  ext i hi
  simp [zext, fld, hi, Bool.and_comm]

/-- A value stored is read back at the same address and size: the bits of it that the size holds. -/
theorem readMem_writeMem (z : Size) (a v : Word) (s : State) (hw : Memory.wf s.mem = true) :
    readMem (writeMem z a v s) z a = zext (fld 0 (8 * z.bytes) v) := by
  rw [readMem, writeMem_pins, writeMem_same z a v s hw, assemble_laneBytes_toNat, ofNat_toNat_eq_zext]

theorem readMem_half_little {s : State} (hb : s.pins.bigEndian = false) (a : Word) :
    readMem s .half a = zext (memGet s.mem ((a &&& 0xFFFFFFFE).toNat + 1) ++ memGet s.mem (a &&& 0xFFFFFFFE).toNat) := by
  rw [readMem, hb, assemble_little]
  exact ofNat_assemble_half _ _

theorem readMem_half_big {s : State} (hb : s.pins.bigEndian = true) (a : Word) :
    readMem s .half a = zext (memGet s.mem (a &&& 0xFFFFFFFE).toNat ++ memGet s.mem ((a &&& 0xFFFFFFFE).toNat + 1)) := by
  rw [readMem, hb]
  exact ofNat_assemble_half _ _

theorem readMem_word_little {s : State} (hb : s.pins.bigEndian = false) (a : Word) :
    readMem s .word a = memGet s.mem ((a &&& 0xFFFFFFFC).toNat + 3) ++ memGet s.mem ((a &&& 0xFFFFFFFC).toNat + 2) ++
      memGet s.mem ((a &&& 0xFFFFFFFC).toNat + 1) ++ memGet s.mem (a &&& 0xFFFFFFFC).toNat := by
  rw [readMem, hb, assemble_little]
  exact ofNat_assemble_word _ _ _ _

theorem readMem_word_big {s : State} (hb : s.pins.bigEndian = true) (a : Word) :
    readMem s .word a = memGet s.mem (a &&& 0xFFFFFFFC).toNat ++ memGet s.mem ((a &&& 0xFFFFFFFC).toNat + 1) ++
      memGet s.mem ((a &&& 0xFFFFFFFC).toNat + 2) ++ memGet s.mem ((a &&& 0xFFFFFFFC).toNat + 3) := by
  rw [readMem, hb]
  exact ofNat_assemble_word _ _ _ _

end Sys2Proof.Machine

section
open Sys2Proof Sys2Proof.Machine

/-- Settles O36: a store's bytes are read as they were laid (`readMem_writeMem`), and a read is its bytes in their order. -/
theorem memoryReadsBackInTheByteOrder : Obligations.MemoryReadsBackInTheByteOrder := by
  unfold Obligations.MemoryReadsBackInTheByteOrder
  refine ⟨fun z a v s hw => ⟨writeMem_wf z a v s hw, ?_, writeMem_other z a v s⟩, fun a s =>
    ⟨fun hb => ⟨readMem_word_little hb a, readMem_half_little hb a⟩,
      fun hb => ⟨readMem_word_big hb a, readMem_half_big hb a⟩, readMem_byte s a⟩⟩
  rw [readMem_writeMem z a v s hw, zext_fld_zero]
  cases z <;> rfl

end

/-! Fields of instruction words (30_encoding.md R132): constant fields, a field over the boundary of two pushed ones, and
a word rebuilt by pushing its own fields. -/

namespace Sys2Proof

@[simp] theorem fld_ofNat (s l n k : Nat) : fld s l (BitVec.ofNat n k) = BitVec.ofNat l (k % 2 ^ n / 2 ^ s) := by
  apply BitVec.eq_of_toNat_eq
  simp [fld, BitVec.extractLsb'_toNat, Nat.shiftRight_eq_div_pow]

@[simp] theorem flag_ofNat (i n k : Nat) : flag i (BitVec.ofNat n k) = (k % 2 ^ n / 2 ^ i % 2 == 1) := by
  rw [flag, BitVec.getLsbD, BitVec.toNat_ofNat, Nat.testBit_eq_decide_div_mod_eq]
  rfl

theorem flag_fld_of_lt {N : Nat} (s l i : Nat) (w : BitVec N) (h : i < l) : flag i (fld s l w) = flag (s + i) w := by
  simp [flag_fld, h]

theorem fld_fld {N : Nat} (s l i m : Nat) (w : BitVec N) (h : i + m ≤ l) : fld i m (fld s l w) = fld (s + i) m w :=
  eq_of_flag fun k hk => by
    rw [flag_fld_of_lt _ _ _ _ hk, flag_fld_of_lt _ _ _ _ (by omega), flag_fld_of_lt _ _ _ _ hk, Nat.add_assoc]

@[simp] theorem bit_flag {N : Nat} (i : Nat) (w : BitVec N) : bit (flag i w) = fld i 1 w :=
  eq_of_flag fun k hk => by
    obtain rfl : k = 0 := by omega
    simp [flag_fld]

@[simp] theorem bit_true : bit true = 1#1 := rfl

@[simp] theorem bit_false : bit false = 0#1 := rfl

/-- A one-bit field is its flag. -/
theorem fld_one {N : Nat} {i : Nat} {w : BitVec N} {b : Bool} (h : flag i w = b) : fld i 1 w = bit b := by
  rw [← bit_flag, h]

theorem flag_of_fld_one {N : Nat} {i : Nat} {w : BitVec N} {b : Bool} (h : fld i 1 w = bit b) : flag i w = b := by
  rw [← flag_bit b, ← h, flag_fld_of_lt _ _ _ _ (by decide), Nat.add_zero]

/-- A field over the boundary of the last push is a constant when its two parts are the parts of the constant. -/
theorem fld_push_span {N n : Nat} (w : BitVec N) (x : BitVec n) (s l : Nat) (k : BitVec l) (hs : s < n) (hn : n < s + l)
    (hi : s + l ≤ N) :
    fld s l (push w x) = k ↔ fld 0 (s + l - n) w = fld (n - s) (s + l - n) k ∧ fld s (n - s) x = fld 0 (n - s) k := by
  rw [fld_split s l (n - s) _ k (by omega), fld_push_hi w x _ _ (by omega) (by omega),
    fld_push_lo w x _ _ (by omega) (by omega), show s + (n - s) - n = 0 by omega, show l - (n - s) = s + l - n by omega]

/-- The next field of a word, pushed under the fields above it. -/
theorem push_next {N l : Nat} (w : BitVec N) (n : Nat) (x : BitVec l) (hl : l ≤ n) (hn : n ≤ N) (h : fld (n - l) l w = x) :
    push (w >>> n) x = w >>> (n - l) :=
  eq_of_flag fun i hi => by
    subst h
    rw [flag, getLsbD_push _ _ _ (by omega)]
    split
    · rename_i hl
      simp [flag, fld, hl]
    · have inside : i < N := hi
      simp [flag, inside, show n + (i - l) = n - l + i by omega]

/-- The top field of a word, pushed first. -/
theorem push_top {N l : Nat} (w : BitVec N) (x : BitVec l) (hl : l ≤ N) (h : fld (N - l) l w = x) :
    push 0#N x = w >>> (N - l) := by
  have none : 0#N = w >>> N := eq_of_flag fun i _ => by
    rw [flag, flag, BitVec.getLsbD_ushiftRight, BitVec.getLsbD_of_ge w _ (by omega), BitVec.getLsbD_zero]
  rw [none]
  exact push_next w N x hl (le_refl N) h

end Sys2Proof

/-! Conditions, shift types, operands and index modes, read from a word and written to one (30_encoding.md R134, R137,
R140, R142; 43_arm_load_store.md R292; 44_arm_load_store_multiple.md R341). -/

namespace Sys2Proof

@[simp] theorem condOfBits_bits (c : Cond) : condOfBits c.bits = c := by cases c <;> rfl

@[simp] theorem Cond.bits_ne (c : Cond) : c.bits ≠ 0b1111#4 := by cases c <;> decide

theorem Cond.bits_eq_al {c : Cond} : c.bits = 0b1110#4 ↔ c = .al := by cases c <;> decide

theorem bits_condOfBits : ∀ b : BitVec 4, b ≠ 0b1111#4 → (condOfBits b).bits = b := by decide

theorem bits_condAt {N : Nat} {i : Nat} {w : BitVec N} (h : fld i 4 w ≠ 0b1111#4) : (condAt i w).bits = fld i 4 w :=
  bits_condOfBits _ h

@[simp] theorem shiftKindOfBits_bits (k : ShiftKind) : shiftKindOfBits k.bits = k := by cases k <;> rfl

@[simp] theorem bits_shiftKindOfBits : ∀ b : BitVec 2, (shiftKindOfBits b).bits = b := by decide

theorem indexAt_eq {w : Word} {idx : Index} (h : flag 24 w = flag 0 idx.p ∧ flag 21 w = flag 0 idx.w) :
    indexAt w = idx := by
  obtain ⟨hp, hw⟩ := h
  cases idx <;> simp [indexAt, hp, hw, Index.p, Index.w]

@[simp] theorem p_indexAt (w : Word) : (indexAt w).p = fld 24 1 w := by
  rw [← bit_flag, indexAt]
  cases flag 24 w <;> cases flag 21 w <;> rfl

@[simp] theorem w_indexAt (w : Word) : (indexAt w).w = fld 21 1 w := by
  rw [← bit_flag, indexAt]
  cases flag 24 w <;> cases flag 21 w <;> rfl

/-- Where the T instructions are decoded apart, no index mode of theirs is left. -/
theorem mode2IndexOk_indexAt {w : Word} (h : ¬ (flag 24 w = false ∧ flag 21 w = true)) :
    mode2IndexOk (indexAt w) = true := by
  unfold indexAt
  cases h24 : flag 24 w with
  | true => cases flag 21 w <;> rfl
  | false =>
    cases h21 : flag 21 w with
    | true => exact absurd ⟨h24, h21⟩ h
    | false => rfl

theorem blockModeAt_eq {w : Word} {m : BlockMode} (h : flag 24 w = flag 0 m.p ∧ flag 23 w = flag 0 m.u) :
    blockModeAt w = m := by
  obtain ⟨hp, hu⟩ := h
  cases m <;> simp [blockModeAt, hp, hu, BlockMode.p, BlockMode.u]

@[simp] theorem p_blockModeAt (w : Word) : (blockModeAt w).p = fld 24 1 w := by
  rw [← bit_flag, blockModeAt]
  cases flag 24 w <;> cases flag 23 w <;> rfl

@[simp] theorem u_blockModeAt (w : Word) : (blockModeAt w).u = fld 23 1 w := by
  rw [← bit_flag, blockModeAt]
  cases flag 24 w <;> cases flag 23 w <;> rfl

/-! `<Oprnd2>` (R137). -/

/-- The fields of a word of which `fld 0 12 w` is known. -/
theorem fld_of_low {w : Word} {b : BitVec 12} (h : fld 0 12 w = b) (s l : Nat) (hl : s + l ≤ 12) : fld s l w = fld s l b := by
  rw [← h, fld_fld _ _ _ _ _ hl, Nat.zero_add]

theorem flag_of_low {w : Word} {b : BitVec 12} (h : fld 0 12 w = b) (i : Nat) (hi : i < 12) : flag i w = flag i b := by
  rw [← h, flag_fld_of_lt _ _ _ _ hi, Nat.zero_add]

theorem operand2At_eq {w : Word} {op2 : Operand2} (h : flag 25 w = flag 0 op2.isImm ∧ fld 0 12 w = op2.bits) :
    operand2At w = op2 := by
  obtain ⟨hi, hb⟩ := h
  cases op2 <;>
    simp [operand2At, hi, Operand2.isImm, flag_of_low hb, fld_of_low hb, Operand2.bits, fld_push_hi, fld_push_lo,
      flag_push_hi, flag_push_lo, fld_zero]

/-- An operand that is a register does not spell the multiplies or the extra loads and stores, whose bits 7 and 4 are set. -/
theorem Operand2.not_extension {op2 : Operand2} (h : flag 0 op2.isImm = false) :
    ¬ (flag 7 op2.bits = true ∧ flag 4 op2.bits = true) := by
  cases op2 with
  | imm => simp [Operand2.isImm] at h
  | shiftImm => simp [Operand2.bits, flag_push_hi, flag_push_lo]
  | shiftReg => simp [Operand2.bits, flag_push_hi, flag_push_lo]

@[simp] theorem isImm_operand2At (w : Word) : (operand2At w).isImm = fld 25 1 w := by
  rw [← bit_flag, operand2At]
  cases flag 25 w <;> cases flag 4 w <;> rfl

theorem bits_operand2At {w : Word} (h : flag 25 w = false → ¬ (flag 7 w = true ∧ flag 4 w = true)) :
    (operand2At w).bits = fld 0 12 w := by
  obtain ⟨v, hv⟩ : ∃ v, fld 0 12 w = v := ⟨_, rfl⟩
  rw [flag_of_low hv 7 (by decide), flag_of_low hv 4 (by decide)] at h
  unfold operand2At
  rw [flag_of_low hv 4 (by decide)]
  split
  · simp [Operand2.bits, fld_of_low hv, fld_zero, push_top v, push_next]
  · rename_i h25
    split
    · rename_i h4
      have h7 : flag 7 v = false := by simpa [h4] using h (by simpa using h25)
      simp [Operand2.bits, fld_of_low hv, fld_zero, push_top v, push_next, fld_one h7, fld_one h4]
    · rename_i h4
      simp [Operand2.bits, fld_of_low hv, fld_zero, push_top v, push_next, fld_one (Bool.eq_false_iff.mpr h4)]

/-! Addressing modes 2 and 3 (R140, R142). -/

theorem offset2At_eq {w : Word} {off : Offset2} (h : flag 25 w = flag 0 off.isReg ∧ fld 0 12 w = off.bits) :
    offset2At w = off := by
  obtain ⟨hi, hb⟩ := h
  cases off <;>
    simp [offset2At, hi, Offset2.isReg, fld_of_low hb, Offset2.bits, fld_push_hi, fld_push_lo, fld_zero]

/-- A register offset does not spell the architecturally undefined space, whose bit 4 is set. -/
theorem Offset2.not_undefined {w : Word} {off : Offset2} (h : flag 25 w = flag 0 off.isReg ∧ fld 0 12 w = off.bits) :
    ¬ (flag 25 w = true ∧ flag 4 w = true) := by
  obtain ⟨hi, hb⟩ := h
  rw [hi, flag_of_low hb 4 (by decide)]
  cases off with
  | imm => simp [Offset2.isReg]
  | reg => simp [Offset2.bits, flag_push_hi, flag_push_lo]

@[simp] theorem isReg_offset2At (w : Word) : (offset2At w).isReg = fld 25 1 w := by
  rw [← bit_flag, offset2At]
  cases flag 25 w <;> rfl

theorem bits_offset2At {w : Word} (h : flag 25 w = true → flag 4 w = false) : (offset2At w).bits = fld 0 12 w := by
  obtain ⟨v, hv⟩ : ∃ v, fld 0 12 w = v := ⟨_, rfl⟩
  rw [flag_of_low hv 4 (by decide)] at h
  unfold offset2At
  split
  · rename_i h25
    simp [Offset2.bits, fld_of_low hv, fld_zero, push_top v, push_next, fld_one (h h25)]
  · rfl

theorem offset3At_eq {w : Word} {off : Offset3}
    (h : flag 22 w = flag 0 off.isImm ∧ fld 8 4 w = off.high ∧ fld 0 4 w = off.low) : offset3At w = off := by
  obtain ⟨hi, hh, hl⟩ := h
  cases off with
  | imm imm8 => simp [offset3At, hi, hh, hl, Offset3.isImm, Offset3.high, Offset3.low, push_top imm8, push_next]
  | reg sbz rm => simp [offset3At, hi, hh, hl, Offset3.isImm, Offset3.high, Offset3.low]

@[simp] theorem isImm_offset3At (w : Word) : (offset3At w).isImm = fld 22 1 w := by
  rw [← bit_flag, offset3At]
  cases flag 22 w <;> rfl

@[simp] theorem high_offset3At (w : Word) : (offset3At w).high = fld 8 4 w := by
  unfold offset3At
  split
  · simp [Offset3.high, fld_push_hi, fld_push_lo, fld_zero]
  · rfl

@[simp] theorem low_offset3At (w : Word) : (offset3At w).low = fld 0 4 w := by
  unfold offset3At
  split
  · simp [Offset3.low, fld_push_self]
  · rfl

end Sys2Proof

/-! Decode of encode, Thumb (30_encoding.md R150, R157 to R168). -/

namespace Sys2Proof

/-- Data processing on registers, the high-register forms and the exchanging branches (R162). -/
theorem decodeThumb_of_01000 {w : Half} (h : fld 11 5 w = 0b01000#5) : decodeThumb w = decodeThumb01000 w := by
  have h12 : fld 12 4 w = 0b0100#4 := ((fld_split 11 5 1 w _ (by decide)).mp h).1
  simp [decodeThumb, h, h12]

/-- The space 1011 (R168). -/
theorem decodeThumb_of_1011 {w : Half} (h : fld 12 4 w = 0b1011#4) : decodeThumb w = decodeThumb1011 w := by
  simp [decodeThumb, h]

theorem decodeThumb_encodeThumb {i : Instr} (ht : i.isThumb = true) (hw : WellFormed i = true) :
    decodeThumb (encodeThumb i) = i := by
  cases i with
  | tLslImm | tLsrImm | tAsrImm | tAddReg | tSubReg | tAddImm3 | tSubImm3 | tMovImm | tCmpImm | tAddImm8 | tSubImm8
  | tLdrPc | tStrReg | tStrhReg | tStrbReg | tLdrsb | tLdrReg | tLdrhReg | tLdrbReg | tLdrsh | tStrImm | tLdrImm
  | tStrbImm | tLdrbImm | tStrhImm | tLdrhImm | tStrSp | tLdrSp | tAddPc | tAddSp | tStmia | tLdmia | tUndefDE | tSwi
  | tB | tBlxLow | tUndef11101 | tBlHigh | tBlLow =>
    simp [encodeThumb, decodeThumb, fld_push_hi, fld_push_lo, flag_push_lo, fld_zero]
  | tBCond c simm8 =>
    have hal : c.bits ≠ 0b1110#4 := fun h => by simp [WellFormed, Cond.bits_eq_al.mp h] at hw
    simp [encodeThumb, decodeThumb, condAt, fld_push_hi, fld_push_lo, fld_zero, hal]
  | tAnd | tEor | tLslReg | tLsrReg | tAsrReg | tAdc | tSbc | tRor | tTst | tNeg | tCmpReg | tCmn | tOrr | tMul | tBic
  | tMvn | tAddHigh | tCmpHigh | tMovHigh | tBx | tBlxReg =>
    rw [decodeThumb_of_01000 (by simp [encodeThumb, fld_push_hi, fld_push_lo])]
    simp [encodeThumb, decodeThumb01000, fld_push_hi, fld_push_lo, flag_push_hi, flag_push_lo, fld_zero]
  | tIncSp | tDecSp | tPush | tPop | tBkpt =>
    rw [decodeThumb_of_1011 (by simp [encodeThumb, fld_push_hi, fld_push_lo])]
    simp [encodeThumb, decodeThumb1011, fld_push_hi, fld_push_lo, flag_push_hi, flag_push_lo, fld_zero]
  | tUndef1011 bits =>
    rw [decodeThumb_of_1011 (by simp [encodeThumb, fld_push_hi, fld_push_lo])]
    simp [WellFormed, tUndef1011Ok] at hw
    simp [encodeThumb, decodeThumb1011, fld_push_lo, flag_push_lo, fld_zero]
    grind
  | _ => cases ht

end Sys2Proof

section
open Sys2Proof

/-- Settles O2: the decoder's tests read the constant fields that the encoder pushed, by the case split of the rows. -/
theorem thumbDecodeInvertsEncode : Obligations.ThumbDecodeInvertsEncode := by
  intro i ht hw
  rw [encode, if_pos ht]
  exact decodeThumb_encodeThumb ht hw

end

/-! Decode of encode, ARM (30_encoding.md R134 to R150): the decoder's part for each space of words, then its rows. -/

namespace Sys2Proof

/-- Bits 31:28 = 1111 (R135, R149). -/
theorem decodeArm_of_uncond {w : Word} (hc : fld 28 4 w = 0b1111#4) : decodeArm w = decodeUncond w := by
  simp [decodeArm, hc]

/-- Bits 27:25 = 000 (R136). -/
theorem decodeArm_of_000 {w : Word} (h : fld 28 4 w ≠ 0b1111#4 ∧ fld 25 3 w = 0b000#3) : decodeArm w = decode000 w := by
  have h26 : fld 26 2 w = 0b00#2 := ((fld_split 25 3 1 w _ (by decide)).mp h.2).1
  simp [decodeArm, h, h26]

/-- Bits 27:25 = 001 in the space of the miscellaneous words: MSR, the no-operation word, unallocated words (R136, R141). -/
theorem decodeArm_of_001 {w : Word}
    (h : fld 28 4 w ≠ 0b1111#4 ∧ fld 25 3 w = 0b001#3) : decodeArm w = decode001 w := by
  have h26 : fld 26 2 w = 0b00#2 := ((fld_split 25 3 1 w _ (by decide)).mp h.2).1
  simp [decodeArm, h, h26]

/-- Bits 27:25 = 100 (R144). -/
theorem decodeArm_of_100 {w : Word} (h : fld 28 4 w ≠ 0b1111#4 ∧ fld 25 3 w = 0b100#3) : decodeArm w = decode100 w := by
  have h26 : fld 26 2 w = 0b10#2 := ((fld_split 25 3 1 w _ (by decide)).mp h.2).1
  simp [decodeArm, h, h26]

/-- Multiplies and swaps (R139, R140). -/
theorem decodeArm_of_mulSwp {w : Word}
    (h : (fld 28 4 w ≠ 0b1111#4 ∧ fld 25 3 w = 0b000#3) ∧ fld 4 4 w = 0b1001#4) : decodeArm w = decodeMulSwp w := by
  obtain ⟨h000, h4⟩ := h
  have bits := (fld_eq_iff 4 4 w _).mp h4
  have b4 : flag 4 w = true := bits 0 (by decide)
  have b7 : flag 7 w = true := bits 3 (by decide)
  have h5 : fld 5 2 w = 0b00#2 := (fld_eq_iff 5 2 w _).mpr fun i hi => by
    rw [Nat.add_assoc 4 1 i, bits (1 + i) (by omega)]
    interval_cases i <;> rfl
  rw [decodeArm_of_000 h000, decode000, if_pos ⟨b7, b4⟩, if_pos h5]

/-- The loads and stores of mode 3 (R140). -/
theorem decodeArm_of_extra {w : Word}
    (h : (fld 28 4 w ≠ 0b1111#4 ∧ fld 25 3 w = 0b000#3) ∧ (flag 7 w = true ∧ flag 4 w = true) ∧ fld 5 2 w ≠ 0b00#2) :
    decodeArm w = decodeExtra w := by
  obtain ⟨h000, h74, h5⟩ := h
  rw [decodeArm_of_000 h000, decode000, if_pos h74, if_neg h5]

/-- The miscellaneous space (R138). -/
theorem decodeArm_of_misc {w : Word}
    (h : (fld 28 4 w ≠ 0b1111#4 ∧ fld 25 3 w = 0b000#3) ∧ ¬ (flag 7 w = true ∧ flag 4 w = true) ∧
      fld 23 2 w = 0b10#2 ∧ flag 20 w = false) : decodeArm w = decodeMisc w := by
  obtain ⟨h000, h74, hmisc⟩ := h
  rw [decodeArm_of_000 h000, decode000, if_neg h74, if_pos hmisc]

/-- Bits 27:26 = 00 with a second operand (R137), outside the miscellaneous space. -/
theorem decodeArm_of_dp {w : Word} (op2 : Operand2)
    (h : (fld 28 4 w ≠ 0b1111#4 ∧ fld 26 2 w = 0b00#2) ∧ (flag 25 w = flag 0 op2.isImm ∧ fld 0 12 w = op2.bits) ∧
      ¬ (fld 23 2 w = 0b10#2 ∧ flag 20 w = false)) : decodeArm w = decodeDp w := by
  obtain ⟨⟨hc, h26⟩, ⟨hi, hb⟩, hmisc⟩ := h
  cases hf : flag 25 w with
  | false =>
    have h25 : fld 25 3 w = 0b000#3 := (fld_split 25 3 1 w _ (by decide)).mpr ⟨h26, fld_one hf⟩
    have hext := Operand2.not_extension (hi.symm.trans hf)
    rw [← flag_of_low hb 7 (by decide), ← flag_of_low hb 4 (by decide)] at hext
    rw [decodeArm_of_000 ⟨hc, h25⟩, decode000, if_neg hext, if_neg hmisc]
  | true =>
    have h25 : fld 25 3 w = 0b001#3 := (fld_split 25 3 1 w _ (by decide)).mpr ⟨h26, fld_one hf⟩
    simp [decodeArm, hc, h26, h25, decode001, hmisc]

/-- Bits 27:26 = 01 (R142, R143). -/
theorem decodeArm_of_01 {w : Word} (h : fld 28 4 w ≠ 0b1111#4 ∧ fld 26 2 w = 0b01#2) : decodeArm w = decode01 w := by
  simp [decodeArm, h]

/-! The rows. A word of a row is in the row's space, and the decoder's part for the space reads the row's fields. -/

theorem decode_encode_uncondTransfer (p u n w : Bool) (rn : Reg) (crd cp : BitVec 4) (offset8 : BitVec 8)
    (h : mode5Ok p u w = true) :
    ∀ i ∈ [Instr.ldc2 p u n w rn crd cp offset8, .stc2 p u n w rn crd cp offset8], decodeArm (encodeArm i) = i := by
  simp only [mode5Ok, Bool.or_eq_true] at h
  simp only [List.forall_mem_cons, List.not_mem_nil, false_implies, implies_true, and_true]
  and_intros
  all_goals
    rw [decodeArm_of_uncond (by simp [encodeArm, fld_push_hi, fld_push_lo])]
    simp [encodeArm, decodeUncond, fld_push_hi, fld_push_lo, flag_push_hi, flag_push_lo, fld_zero, h]

theorem decode_encode_unallocUncond {bits : BitVec 28} (h : unallocUncondOk bits = true) :
    decodeArm (encodeArm (.unallocUncond bits)) = .unallocUncond bits := by
  simp only [unallocUncondOk, Bool.and_eq_true, bne_iff_ne, Bool.not_eq_true', Bool.and_eq_false_iff,
    beq_eq_false_iff_ne] at h
  obtain ⟨⟨⟨hpld, hblx⟩, hcop⟩, hreg⟩ := h
  rw [decodeArm_of_uncond (by simp [encodeArm, fld_push_hi, fld_push_lo])]
  simp [encodeArm, decodeUncond, fld_push_lo, flag_push_lo, fld_zero, hblx, hcop, hreg]
  grind

theorem decode_encode_multiply (c : Cond) (sf : Bool) (rd rn rs rm : Reg) :
    ∀ i ∈ [Instr.mul c sf rd rn rs rm, .mla c sf rd rn rs rm, .umull c sf rd rn rs rm, .umlal c sf rd rn rs rm,
      .smull c sf rd rn rs rm, .smlal c sf rd rn rs rm, .swp c rd rn rs rm, .swpb c rd rn rs rm],
      decodeArm (encodeArm i) = i := by
  simp only [List.forall_mem_cons, List.not_mem_nil, false_implies, implies_true, and_true]
  and_intros
  all_goals
    rw [decodeArm_of_mulSwp (by simp [encodeArm, fld_push_hi, fld_push_lo, fld_zero])]
    simp [encodeArm, decodeMulSwp, condAt, fld_push_hi, fld_push_lo, flag_push_hi, flag_push_lo, fld_zero]

theorem decode_encode_unallocMulSwp {c : Cond} {op : BitVec 5} {mid : BitVec 12} {low : BitVec 4}
    (h : unallocMulSwpOk op = true) :
    decodeArm (encodeArm (.unallocMulSwp c op mid low)) = .unallocMulSwp c op mid low := by
  simp only [unallocMulSwpOk, Bool.and_eq_true, bne_iff_ne] at h
  obtain ⟨⟨⟨⟨⟨⟨⟨hmul, hmla⟩, humull⟩, humlal⟩, hsmull⟩, hsmlal⟩, hswp⟩, hswpb⟩ := h
  have swap {k : BitVec 5} (hk : op ≠ k) (e : fld 0 1 k = 0#1) : ¬ (fld 1 4 op = fld 1 4 k ∧ flag 0 op = false) :=
    fun ⟨h4, h0⟩ => hk (by
      rw [← fld_zero op]
      exact (fld_split 0 5 1 op k (by decide)).mpr ⟨h4, (fld_one h0).trans e.symm⟩)
  have hswp' : ¬ (fld 1 4 op = 8#4 ∧ flag 0 op = false) := swap hswp rfl
  have hswpb' : ¬ (fld 1 4 op = 10#4 ∧ flag 0 op = false) := swap hswpb rfl
  rw [decodeArm_of_mulSwp (by simp [encodeArm, fld_push_hi, fld_push_lo, fld_zero])]
  simp [encodeArm, decodeMulSwp, condAt, fld_push_hi, fld_push_lo, flag_push_hi, flag_push_lo, fld_zero, hmul, hmla,
    humull, humlal, hsmull, hsmlal]
  rw [if_neg hswp', if_neg hswpb']

theorem decode_encode_extra (c : Cond) (u : Bool) (idx : Index) (rn rd : Reg) (off : Offset3) :
    ∀ i ∈ [Instr.strh c u idx rn rd off, .ldrd c u idx rn rd off, .strd c u idx rn rd off, .ldrh c u idx rn rd off,
      .ldrsb c u idx rn rd off, .ldrsh c u idx rn rd off], decodeArm (encodeArm i) = i := by
  simp only [List.forall_mem_cons, List.not_mem_nil, false_implies, implies_true, and_true]
  and_intros
  all_goals
    rw [decodeArm_of_extra ?_, decodeExtra, indexAt_eq (idx := idx) ?_, offset3At_eq (off := off) ?_]
    all_goals simp [encodeArm, condAt, fld_push_hi, fld_push_lo, flag_push_hi, flag_push_lo, fld_zero]

theorem decode_encode_status (c : Cond) (r : Bool) (mask sbo sbz : BitVec 4) (rm : Reg) :
    ∀ i ∈ [Instr.mrs c r mask sbo sbz rm, .msrReg c r mask sbo sbz rm], decodeArm (encodeArm i) = i := by
  simp only [List.forall_mem_cons, List.not_mem_nil, false_implies, implies_true, and_true]
  and_intros
  all_goals
    rw [decodeArm_of_misc (by simp [encodeArm, fld_push_hi, fld_push_lo, flag_push_hi, flag_push_lo, fld_zero])]
    simp [encodeArm, decodeMisc, condAt, fld_push_hi, fld_push_lo, flag_push_hi, flag_push_lo, fld_zero]

theorem decode_encode_exchange (c : Cond) (sbo : BitVec 12) (rm : Reg) :
    ∀ i ∈ [Instr.bx c sbo rm, .blxReg c sbo rm, .bkpt c sbo rm], decodeArm (encodeArm i) = i := by
  simp only [List.forall_mem_cons, List.not_mem_nil, false_implies, implies_true, and_true]
  and_intros
  all_goals
    rw [decodeArm_of_misc (by simp [encodeArm, fld_push_hi, fld_push_lo, flag_push_hi, flag_push_lo, fld_zero])]
    simp [encodeArm, decodeMisc, condAt, fld_push_hi, fld_push_lo, flag_push_hi, flag_push_lo, fld_zero]

theorem decode_encode_saturating (c : Cond) (rn rd : Reg) (sbz : BitVec 4) (rm : Reg) :
    ∀ i ∈ [Instr.clz c rn rd sbz rm, .qadd c rn rd sbz rm, .qsub c rn rd sbz rm, .qdadd c rn rd sbz rm,
      .qdsub c rn rd sbz rm], decodeArm (encodeArm i) = i := by
  simp only [List.forall_mem_cons, List.not_mem_nil, false_implies, implies_true, and_true]
  and_intros
  all_goals
    rw [decodeArm_of_misc (by simp [encodeArm, fld_push_hi, fld_push_lo, flag_push_hi, flag_push_lo, fld_zero])]
    simp [encodeArm, decodeMisc, condAt, fld_push_hi, fld_push_lo, flag_push_hi, flag_push_lo, fld_zero]

theorem decode_encode_halfMultiply (c : Cond) (rd rn rs : Reg) (y x : Bool) (rm : Reg) :
    ∀ i ∈ [Instr.smlaXY c rd rn rs y x rm, .smlawY c rd rn rs y rm, .smulwY c rd rn rs y rm, .smlalXY c rd rn rs y x rm,
      .smulXY c rd rn rs y x rm], decodeArm (encodeArm i) = i := by
  simp only [List.forall_mem_cons, List.not_mem_nil, false_implies, implies_true, and_true]
  and_intros
  all_goals
    rw [decodeArm_of_misc (by simp [encodeArm, fld_push_hi, fld_push_lo, flag_push_hi, flag_push_lo, fld_zero])]
    simp [encodeArm, decodeMisc, condAt, fld_push_hi, fld_push_lo, fld_push_span, flag_push_hi, flag_push_lo, fld_zero]

theorem decode_encode_unallocMisc {c : Cond} {op : BitVec 2} {mid : BitVec 12} {lo low : BitVec 4}
    (h : unallocMiscOk op lo = true) :
    decodeArm (encodeArm (.unallocMisc c op mid lo low)) = .unallocMisc c op mid lo low := by
  simp [unallocMiscOk] at h
  rw [decodeArm_of_misc (by simp [encodeArm, fld_push_hi, fld_push_lo, flag_push_hi, flag_push_lo, fld_zero, h])]
  simp [encodeArm, decodeMisc, condAt, fld_push_hi, fld_push_lo, flag_push_hi, flag_push_lo, fld_zero, h]
  grind

theorem decode_encode_unalloc00110 (c : Cond) (r : Bool) (rest : BitVec 20) :
    decodeArm (encodeArm (.unalloc00110 c r rest)) = .unalloc00110 c r rest := by
  rw [decodeArm_of_001 (by simp [encodeArm, fld_push_hi, fld_push_lo, fld_zero])]
  simp [encodeArm, decode001, condAt, fld_push_hi, fld_push_lo, flag_push_hi, flag_push_lo, fld_zero]

theorem decode_encode_msrImm {c : Cond} {r : Bool} {mask sbo rot : BitVec 4} {imm8 : BitVec 8}
    (h : msrImmOk c r mask sbo rot imm8 = true) :
    decodeArm (encodeArm (.msrImm c r mask sbo rot imm8)) = .msrImm c r mask sbo rot imm8 := by
  simp [msrImmOk] at h
  rw [decodeArm_of_001 (by simp [encodeArm, fld_push_hi, fld_push_lo, fld_zero])]
  simp [encodeArm, decode001, condAt, fld_push_hi, fld_push_lo, flag_push_hi, flag_push_lo, fld_zero, Cond.bits_eq_al]
  grind

theorem decode_encode_dataOp (c : Cond) (sf : Bool) (rn rd : Reg) (op2 : Operand2) :
    ∀ i ∈ [Instr.armAnd c sf rn rd op2, .armEor c sf rn rd op2, .armSub c sf rn rd op2, .armRsb c sf rn rd op2,
      .armAdd c sf rn rd op2, .armAdc c sf rn rd op2, .armSbc c sf rn rd op2, .armRsc c sf rn rd op2,
      .armOrr c sf rn rd op2, .armMov c sf rn rd op2, .armBic c sf rn rd op2, .armMvn c sf rn rd op2],
      decodeArm (encodeArm i) = i := by
  simp only [List.forall_mem_cons, List.not_mem_nil, false_implies, implies_true, and_true]
  and_intros
  all_goals
    rw [decodeArm_of_dp op2 ?_, decodeDp, operand2At_eq (op2 := op2) ?_]
    all_goals simp [encodeArm, condAt, fld_push_hi, fld_push_lo, flag_push_hi, flag_push_lo, fld_zero]

theorem decode_encode_compare (c : Cond) (rn sbz : Reg) (op2 : Operand2) :
    ∀ i ∈ [Instr.armTst c rn sbz op2, .armTeq c rn sbz op2, .armCmp c rn sbz op2, .armCmn c rn sbz op2],
      decodeArm (encodeArm i) = i := by
  simp only [List.forall_mem_cons, List.not_mem_nil, false_implies, implies_true, and_true]
  and_intros
  all_goals
    rw [decodeArm_of_dp op2 ?_, decodeDp, operand2At_eq (op2 := op2) ?_]
    all_goals simp [encodeArm, condAt, fld_push_hi, fld_push_lo, flag_push_hi, flag_push_lo, fld_zero]

theorem decode_encode_userTransfer (c : Cond) (u : Bool) (rn rd : Reg) (off : Offset2) :
    ∀ i ∈ [Instr.ldrt c u rn rd off, .ldrbt c u rn rd off, .strt c u rn rd off, .strbt c u rn rd off],
      decodeArm (encodeArm i) = i := by
  simp only [List.forall_mem_cons, List.not_mem_nil, false_implies, implies_true, and_true]
  and_intros
  all_goals
    rw [decodeArm_of_01 ?_, decode01, if_neg (Offset2.not_undefined (off := off) ?_), offset2At_eq (off := off) ?_]
    all_goals simp [encodeArm, condAt, fld_push_hi, fld_push_lo, flag_push_hi, flag_push_lo, fld_zero]

theorem decode_encode_transfer (c : Cond) (u : Bool) (idx : Index) (rn rd : Reg) (off : Offset2)
    (h : mode2IndexOk idx = true) :
    ∀ i ∈ [Instr.ldr c u idx rn rd off, .ldrb c u idx rn rd off, .str c u idx rn rd off, .strb c u idx rn rd off],
      decodeArm (encodeArm i) = i := by
  have hidx : ¬ (flag 0 idx.p = false ∧ flag 0 idx.w = true) := by
    cases idx with
    | postWriteback => cases h
    | _ => decide
  simp only [List.forall_mem_cons, List.not_mem_nil, false_implies, implies_true, and_true]
  and_intros
  all_goals
    rw [decodeArm_of_01 ?_, decode01, if_neg (Offset2.not_undefined (off := off) ?_), offset2At_eq (off := off) ?_,
      indexAt_eq (idx := idx) ?_]
    all_goals simp [encodeArm, condAt, fld_push_hi, fld_push_lo, flag_push_hi, flag_push_lo, fld_zero, hidx]

theorem decode_encode_multiple (c : Cond) (mode : BlockMode) (w : Bool) (rn : Reg) (list : BitVec 16)
    (list15 : BitVec 15) :
    ∀ i ∈ [Instr.ldm1 c mode w rn list, .ldm2 c mode w rn list15, .ldm3 c mode w rn list15, .stm1 c mode w rn list,
      .stm2 c mode w rn list], decodeArm (encodeArm i) = i := by
  simp only [List.forall_mem_cons, List.not_mem_nil, false_implies, implies_true, and_true]
  and_intros
  all_goals
    rw [decodeArm_of_100 ?_, decode100, blockModeAt_eq (m := mode) ?_]
    all_goals simp [encodeArm, condAt, fld_push_hi, fld_push_lo, flag_push_hi, flag_push_lo, fld_zero]

theorem decode_encode_copTransfer (c : Cond) (p u n w : Bool) (rn : Reg) (crd cp : BitVec 4) (offset8 : BitVec 8)
    (h : mode5Ok p u w = true) :
    ∀ i ∈ [Instr.ldc c p u n w rn crd cp offset8, .stc c p u n w rn crd cp offset8], decodeArm (encodeArm i) = i := by
  simp only [mode5Ok, Bool.or_eq_true] at h
  simp only [List.forall_mem_cons, List.not_mem_nil, false_implies, implies_true, and_true]
  and_intros
  all_goals
    simp [encodeArm, decodeArm, decode110, condAt, fld_push_hi, fld_push_lo, flag_push_hi, flag_push_lo, fld_zero, h]

/-- Decode of encode, row by row. -/
theorem decodeArm_encodeArm {i : Instr} (ht : i.isThumb = false) (hw : WellFormed i = true) :
    decodeArm (encodeArm i) = i := by
  cases i with
  | pld | blxImm | unallocUncondCop | cdp2 | mcr2 | mrc2 =>
    rw [decodeArm_of_uncond (by simp [encodeArm, fld_push_hi, fld_push_lo])]
    simp [encodeArm, decodeUncond, fld_push_hi, fld_push_lo, flag_push_hi, flag_push_lo, fld_zero]
  | ldc2 p u n w rn crd cp offset8 | stc2 p u n w rn crd cp offset8 =>
    exact decode_encode_uncondTransfer p u n w rn crd cp offset8 hw _ (by simp)
  | unallocUncond => exact decode_encode_unallocUncond hw
  | nop => rfl
  | mul c sf rd rn rs rm | mla c sf rd rn rs rm | umull c sf rd rn rs rm | umlal c sf rd rn rs rm
  | smull c sf rd rn rs rm | smlal c sf rd rn rs rm =>
    exact decode_encode_multiply c sf rd rn rs rm _ (by simp)
  | swp c rn rd sbz rm | swpb c rn rd sbz rm => exact decode_encode_multiply c false rn rd sbz rm _ (by simp)
  | unallocMulSwp => exact decode_encode_unallocMulSwp hw
  | strh c u idx rn rd off | ldrd c u idx rn rd off | strd c u idx rn rd off | ldrh c u idx rn rd off
  | ldrsb c u idx rn rd off | ldrsh c u idx rn rd off => exact decode_encode_extra c u idx rn rd off _ (by simp)
  | mrs c r mask sbo sbz rm | msrReg c r mask sbo sbz rm => exact decode_encode_status c r mask sbo sbz rm _ (by simp)
  | bx c sbo rm | blxReg c sbo rm | bkpt c sbo rm => exact decode_encode_exchange c sbo rm _ (by simp)
  | clz c rn rd sbz rm | qadd c rn rd sbz rm | qsub c rn rd sbz rm | qdadd c rn rd sbz rm | qdsub c rn rd sbz rm =>
    exact decode_encode_saturating c rn rd sbz rm _ (by simp)
  | smlaXY c rd rn rs y x rm | smlalXY c rd rn rs y x rm | smulXY c rd rn rs y x rm =>
    exact decode_encode_halfMultiply c rd rn rs y x rm _ (by simp)
  | smlawY c rd rn rs y rm | smulwY c rd rn rs y rm =>
    exact decode_encode_halfMultiply c rd rn rs y false rm _ (by simp)
  | unallocMisc => exact decode_encode_unallocMisc hw
  | msrImm => exact decode_encode_msrImm hw
  | unalloc00110 c r rest => exact decode_encode_unalloc00110 c r rest
  | armAnd c sf rn rd op2 | armEor c sf rn rd op2 | armSub c sf rn rd op2 | armRsb c sf rn rd op2
  | armAdd c sf rn rd op2 | armAdc c sf rn rd op2 | armSbc c sf rn rd op2 | armRsc c sf rn rd op2
  | armOrr c sf rn rd op2 | armMov c sf rn rd op2 | armBic c sf rn rd op2 | armMvn c sf rn rd op2 =>
    exact decode_encode_dataOp c sf rn rd op2 _ (by simp)
  | armTst c rn sbz op2 | armTeq c rn sbz op2 | armCmp c rn sbz op2 | armCmn c rn sbz op2 =>
    exact decode_encode_compare c rn sbz op2 _ (by simp)
  | undefArm =>
    simp [encodeArm, decodeArm, decode01, condAt, fld_push_hi, fld_push_lo, flag_push_hi, flag_push_lo, fld_zero]
  | ldrt c u rn rd off | ldrbt c u rn rd off | strt c u rn rd off | strbt c u rn rd off =>
    exact decode_encode_userTransfer c u rn rd off _ (by simp)
  | ldr c u idx rn rd off | ldrb c u idx rn rd off | str c u idx rn rd off | strb c u idx rn rd off =>
    exact decode_encode_transfer c u idx rn rd off hw _ (by simp)
  | ldm1 c mode w rn list | stm1 c mode w rn list | stm2 c mode w rn list =>
    exact decode_encode_multiple c mode w rn list 0 _ (by simp)
  | ldm2 c mode w rn list | ldm3 c mode w rn list => exact decode_encode_multiple c mode w rn 0 list _ (by simp)
  | b | bl | mcrr | mrrc | unallocCop | cdp | mcr | mrc | armSwi =>
    simp [encodeArm, decodeArm, decode110, decode111, condAt, fld_push_hi, fld_push_lo, flag_push_hi, flag_push_lo,
      fld_zero]
  | ldc c p u n w rn crd cp offset8 | stc c p u n w rn crd cp offset8 =>
    exact decode_encode_copTransfer c p u n w rn crd cp offset8 hw _ (by simp)
  | _ => cases ht

end Sys2Proof

section
open Sys2Proof

/-- Settles O1: a row's word is in the row's space and the decoder reads the fields that the encoder pushed
(`decodeArm_encodeArm`). -/
theorem armDecodeInvertsEncode : Obligations.ArmDecodeInvertsEncode := by
  intro i ht hw
  rw [encode, if_neg (by simp [ht])]
  exact decodeArm_encodeArm ht hw

end

/-! Encode of decode (30_encoding.md R150): a decoded word is put together again from its own fields. -/

namespace Sys2Proof

/-- `i` is a well-formed instruction that an encoder gives the word `w`. -/
def Spells {N : Nat} (encoder : Instr → BitVec N) (w : BitVec N) (i : Instr) : Prop :=
  WellFormed i = true ∧ encoder i = w

theorem spells_ite {N : Nat} {encoder : Instr → BitVec N} {w : BitVec N} {p : Prop} [Decidable p] {i j : Instr}
    (hi : p → Spells encoder w i) (hj : ¬ p → Spells encoder w j) : Spells encoder w (if p then i else j) := by
  split
  · exact hi ‹_›
  · exact hj ‹_›

/-- A test of one bit, as the value of its field. -/
theorem spells_iteFlag {N : Nat} {encoder : Instr → BitVec N} {v : BitVec N} {n k : Nat} {w : BitVec n} {i j : Instr}
    (hi : fld k 1 w = 1#1 → Spells encoder v i) (hj : fld k 1 w = 0#1 → Spells encoder v j) :
    Spells encoder v (if flag k w = true then i else j) :=
  spells_ite (fun h => hi (fld_one h)) fun h => hj (fld_one (Bool.eq_false_iff.mpr h))

/-- Two adjacent fields of known values as one field. -/
theorem fld_join {N : Nat} {w : BitVec N} (s l m : Nat) {x : BitVec m} {y : BitVec l} (hx : fld (s + l) m w = x)
    (hy : fld s l w = y) : fld s (m + l) w = x ++ y := by
  rw [← hx, ← hy, Machine.fld_append_fld]

/-- Multiplies and swaps (R139, R140). -/
theorem decodeMulSwp_spells {w : Word} (hc : fld 28 4 w ≠ 0b1111#4) (h25 : fld 25 3 w = 0b000#3)
    (h4 : fld 4 4 w = 0b1001#4) : Spells encodeArm w (decodeMulSwp w) := by
  have row {k : BitVec 4} (h : fld 21 4 w = k) : fld 21 7 w = 0#3 ++ k := fld_join 21 4 3 h25 h
  have swap {k : BitVec 4} (h : fld 21 4 w = k ∧ flag 20 w = false) : fld 20 8 w = (0#3 ++ k) ++ 0#1 :=
    fld_join 20 1 7 (row h.1) (fld_one h.2)
  have noSwap {k : BitVec 5} (h : ¬ (fld 21 4 w = fld 1 4 k ∧ flag 20 w = false)) (hk : fld 0 1 k = bit false) :
      fld 20 5 w ≠ k := fun e =>
    have ⟨hi, lo⟩ := (fld_split 20 5 1 w k (by decide)).mp e
    h ⟨hi, flag_of_fld_one (lo.trans hk)⟩
  unfold decodeMulSwp
  iterate 6
    refine spells_ite (fun h => ⟨rfl, by simp [encodeArm, bits_condAt hc, push_top w, push_next, h4, row h]⟩) fun _ => ?_
  iterate 2
    refine spells_ite (fun h => ⟨rfl, by simp [encodeArm, bits_condAt hc, push_top w, push_next, h4, swap h]⟩) fun h => ?_
  rename_i hswp
  have hswp' : fld 20 5 w ≠ 16#5 := noSwap hswp rfl
  have hswpb' : fld 20 5 w ≠ 20#5 := noSwap h rfl
  refine ⟨?_, by simp [encodeArm, bits_condAt hc, push_top w, push_next, h4, h25]⟩
  simp [WellFormed, unallocMulSwpOk, fld_fld, *]

/-- The loads and stores of mode 3 (R140). -/
theorem decodeExtra_spells {w : Word} (hc : fld 28 4 w ≠ 0b1111#4) (h25 : fld 25 3 w = 0b000#3)
    (h7 : flag 7 w = true) (h4 : flag 4 w = true) (h5 : fld 5 2 w ≠ 0b00#2) : Spells encodeArm w (decodeExtra w) := by
  have row {k : BitVec 2} (h : fld 5 2 w = k) : fld 4 4 w = (1#1 ++ k) ++ 1#1 :=
    fld_join 4 1 3 (fld_join 5 2 1 (fld_one h7) h) (fld_one h4)
  have last (h1 : ¬ fld 5 2 w = 0b01#2) (h2 : ¬ fld 5 2 w = 0b10#2) : fld 5 2 w = 0b11#2 := by
    generalize fld 5 2 w = k at h5 h1 h2
    revert k
    decide
  unfold decodeExtra
  refine spells_iteFlag (fun h20 => ?_) fun h20 => ?_
  all_goals
    refine spells_ite (fun h => ⟨rfl, ?_⟩) fun h1 => spells_ite (fun h => ⟨rfl, ?_⟩) fun h2 => ⟨rfl, ?_⟩
    · simp [encodeArm, bits_condAt hc, push_top w, push_next, h25, h20, row h]
    · simp [encodeArm, bits_condAt hc, push_top w, push_next, h25, h20, row h]
    · simp [encodeArm, bits_condAt hc, push_top w, push_next, h25, h20, row (last h1 h2)]

/-- Data processing (R137). A comparison with S = 0 would stand in the miscellaneous space. -/
theorem decodeDp_spells {w : Word} (hc : fld 28 4 w ≠ 0b1111#4) (h26 : fld 26 2 w = 0b00#2)
    (hext : flag 25 w = false → ¬ (flag 7 w = true ∧ flag 4 w = true))
    (hmisc : ¬ (fld 23 2 w = 0b10#2 ∧ flag 20 w = false)) : Spells encodeArm w (decodeDp w) := by
  have compare {k : BitVec 4} (h : fld 21 4 w = k) (hk : fld 2 2 k = 0b10#2) : fld 20 5 w = k ++ 1#1 := by
    have h23 : fld 23 2 w = 0b10#2 := ((fld_split 21 4 2 w k (by decide)).mp h).1.trans hk
    have h20 : flag 20 w = true := by simpa [h23] using hmisc
    exact fld_join 20 1 4 h (fld_one h20)
  unfold decodeDp
  iterate 8
    refine spells_ite (fun h => ⟨rfl, by
      simp [encodeArm, bits_condAt hc, bits_operand2At hext, push_top w, push_next, h26, h]⟩) fun _ => ?_
  iterate 4
    refine spells_ite (fun h => ⟨rfl, by
      simp [encodeArm, bits_condAt hc, bits_operand2At hext, push_top w, push_next, h26, compare h rfl]⟩) fun _ => ?_
  iterate 3
    refine spells_ite (fun h => ⟨rfl, by
      simp [encodeArm, bits_condAt hc, bits_operand2At hext, push_top w, push_next, h26, h]⟩) fun _ => ?_
  refine ⟨rfl, ?_⟩
  have h : fld 21 4 w = 15#4 := by bv_omega
  simp [encodeArm, bits_condAt hc, bits_operand2At hext, push_top w, push_next, h26, h]

end Sys2Proof

/-! The ARM decoder, part by part (30_encoding.md R136 and the rows it names): what each part decodes is well-formed and
its encoding is the word (`Spells`). The constants of a row are joined from the fields that the decoder tested. -/

namespace Sys2Proof

theorem bitVec_two_cases : ∀ k : BitVec 2, k = 0b00#2 ∨ k = 0b01#2 ∨ k = 0b10#2 ∨ k = 0b11#2 := by decide

/-- The constants of the miscellaneous space: bits 27:20 from bits 22:21. -/
theorem fld_misc {w : Word} (h23 : fld 23 5 w = 0b00010#5) (h20 : flag 20 w = false) {k : BitVec 2}
    (h : fld 21 2 w = k) : fld 20 8 w = (0b00010#5 ++ k) ++ 0#1 :=
  fld_join 20 1 7 (fld_join 21 2 5 h23 h) (fld_one h20)

/-- What is left of the miscellaneous space is unallocated. -/
theorem unallocMiscOk_of {w : Word} (hext : ¬ (flag 7 w = true ∧ flag 4 w = true))
    (hstatus : fld 4 4 w ≠ 0b0000#4) (hsat : fld 4 4 w ≠ 0b0101#4)
    (hbx : ¬ (fld 21 2 w = 0b01#2 ∧ fld 4 4 w = 0b0001#4)) (hblx : ¬ (fld 21 2 w = 0b01#2 ∧ fld 4 4 w = 0b0011#4))
    (hclz : ¬ (fld 21 2 w = 0b11#2 ∧ fld 4 4 w = 0b0001#4)) (hbkpt : ¬ (fld 21 2 w = 0b01#2 ∧ fld 4 4 w = 0b0111#4))
    (hdsp : ¬ (flag 7 w = true ∧ flag 4 w = false)) : unallocMiscOk (fld 21 2 w) (fld 4 4 w) = true := by
  have h7 : flag 7 w = false := by
    cases h4 : flag 4 w <;> simp_all
  simp [unallocMiscOk, flag_fld]
  grind

/-- The miscellaneous space. -/
theorem decodeMisc_spells {w : Word} (hc : fld 28 4 w ≠ 0b1111#4) (h23 : fld 23 5 w = 0b00010#5)
    (h20 : flag 20 w = false) (hext : ¬ (flag 7 w = true ∧ flag 4 w = true)) : Spells encodeArm w (decodeMisc w) := by
  have row {k : BitVec 2} {l : BitVec 4} (h : fld 21 2 w = k ∧ fld 4 4 w = l) :
    fld 20 8 w = (0b00010#5 ++ k) ++ 0#1 := fld_misc h23 h20 h.1
  unfold decodeMisc
  refine spells_ite (fun h => ⟨rfl, ?_⟩) fun hmrs => spells_ite (fun h => ⟨rfl, ?_⟩) fun hmsr => ?_
  · have h21 : fld 20 2 w = 0#1 ++ 0#1 := fld_join 20 1 1 (fld_one h.2) (fld_one h20)
    simp [encodeArm, bits_condAt hc, push_top w, push_next, h23, h21, h.1]
  · have h21 : fld 20 2 w = 1#1 ++ 0#1 := fld_join 20 1 1 (fld_one h.2) (fld_one h20)
    simp [encodeArm, bits_condAt hc, push_top w, push_next, h23, h21, h.1]
  iterate 8
    refine spells_ite (fun h => ⟨rfl, by simp [encodeArm, bits_condAt hc, push_top w, push_next, row h, h.2]⟩) fun _ => ?_
  refine spells_ite (fun h => ⟨rfl, ?_⟩) fun _ => ?_
  · obtain ⟨h7, h4, h21⟩ := h
    simp [encodeArm, bits_condAt hc, push_top w, push_next, fld_misc h23 h20 h21, fld_one h7, fld_one h4]
  refine spells_ite (fun h => ⟨rfl, ?_⟩) fun _ => ?_
  · obtain ⟨h7, h4, h21, h5⟩ := h
    have h45 : fld 4 2 w = 0#1 ++ 0#1 := fld_join 4 1 1 (fld_one h5) (fld_one h4)
    simp [encodeArm, bits_condAt hc, push_top w, push_next, fld_misc h23 h20 h21, fld_one h7, h45]
  refine spells_ite (fun h => ⟨rfl, ?_⟩) fun _ => ?_
  · obtain ⟨h7, h4, h21, h5⟩ := h
    have h45 : fld 4 2 w = 1#1 ++ 0#1 := fld_join 4 1 1 (fld_one h5) (fld_one h4)
    simp [encodeArm, bits_condAt hc, push_top w, push_next, fld_misc h23 h20 h21, fld_one h7, h45]
  iterate 2
    refine spells_ite (fun h => ⟨rfl, ?_⟩) fun _ => ?_
    · obtain ⟨h7, h4, h21⟩ := h
      simp [encodeArm, bits_condAt hc, push_top w, push_next, fld_misc h23 h20 h21, fld_one h7, fld_one h4]
  have hop := bitVec_two_cases (fld 21 2 w)
  refine ⟨unallocMiscOk_of hext ?_ ?_ ‹_› ‹_› ‹_› ‹_› ?_, ?_⟩
  · intro h
    cases h21 : flag 21 w <;> simp_all
  · grind
  · grind
  · simp [encodeArm, bits_condAt hc, push_top w, push_next, h23, fld_one h20]

/-- Bits 27:25 = 000: multiplies, extra loads and stores, the miscellaneous space, data processing. -/
theorem decode000_spells {w : Word} (hc : fld 28 4 w ≠ 0b1111#4) (h25 : fld 25 3 w = 0b000#3) :
    Spells encodeArm w (decode000 w) := by
  have h26 : fld 26 2 w = 0b00#2 := ((fld_split 25 3 1 w _ (by decide)).mp h25).1
  unfold decode000
  refine spells_ite (fun h => ?_) fun hext => ?_
  · obtain ⟨h7, h4⟩ := h
    refine spells_ite (fun h5 => decodeMulSwp_spells hc h25 ?_) fun h5 => decodeExtra_spells hc h25 h7 h4 h5
    exact fld_join 4 1 3 (fld_join 5 2 1 (fld_one h7) h5) (fld_one h4)
  · refine spells_ite (fun h => ?_) fun hmisc => decodeDp_spells hc h26 (fun _ => hext) hmisc
    exact decodeMisc_spells hc (fld_join 23 2 3 h25 h.1) h.2 hext

/-- The no-operation word is the one word that its test of the fields admits (R141). -/
theorem eq_nop {w : Word} (h23 : fld 23 5 w = 0b00110#5) (h21 : fld 20 2 w = 0b10#2)
    (h : fld 28 4 w = 0b1110#4 ∧ flag 22 w = false ∧ fld 16 4 w = 0#4 ∧ fld 12 4 w = 0b1111#4 ∧ fld 8 4 w = 0#4 ∧
      fld 0 8 w = 0#8) : encodeArm .nop = w := by
  obtain ⟨h28, h22, h16, h12, h8, h0⟩ := h
  have e := fld_join 0 8 24 (fld_join 8 4 20 (fld_join 12 4 16 (fld_join 16 4 12 (fld_join 20 2 10 (fld_join 22 1 9
    (fld_join 23 5 4 h28 h23) (fld_one h22)) h21) h16) h12) h8) h0
  rw [← fld_zero w]
  exact e.symm

/-- Bits 27:25 = 001: data processing with an immediate, MSR (immediate) and the no-operation word. -/
theorem decode001_spells {w : Word} (hc : fld 28 4 w ≠ 0b1111#4) (h25 : fld 25 3 w = 0b001#3) :
    Spells encodeArm w (decode001 w) := by
  obtain ⟨h26, h25'⟩ := (fld_split 25 3 1 w _ (by decide)).mp h25
  have b25 : flag 25 w = true := flag_of_fld_one h25'
  unfold decode001
  refine spells_ite (fun h => ?_) fun hmisc => decodeDp_spells hc h26 (fun h => by simp [b25] at h) hmisc
  obtain ⟨h23, h20⟩ := h
  have h23 : fld 23 5 w = 0b00110#5 := fld_join 23 2 3 h25 h23
  refine spells_iteFlag (fun h21 => ?_) fun h21 => ⟨rfl, ?_⟩
  · have h21 : fld 20 2 w = 0b10#2 := fld_join 20 1 1 h21 (fld_one h20)
    refine spells_ite (fun h => ⟨rfl, eq_nop h23 h21 h⟩) fun hnop => ⟨?_, ?_⟩
    · have hal : condAt 28 w = .al ↔ fld 28 4 w = 0b1110#4 := by rw [← Cond.bits_eq_al, bits_condAt hc]
      simp [WellFormed, msrImmOk, hal]
      grind
    · simp [encodeArm, bits_condAt hc, push_top w, push_next, h23, h21]
  · have h21 : fld 20 2 w = 0b00#2 := fld_join 20 1 1 h21 (fld_one h20)
    simp [encodeArm, bits_condAt hc, push_top w, push_next, h23, h21]

/-- Bits 27:26 = 01: loads and stores of words and bytes. -/
theorem decode01_spells {w : Word} (hc : fld 28 4 w ≠ 0b1111#4) (h26 : fld 26 2 w = 0b01#2) :
    Spells encodeArm w (decode01 w) := by
  unfold decode01
  refine spells_ite (fun h => ⟨rfl, ?_⟩) fun hundef => ?_
  · have h25 : fld 25 3 w = 0b01#2 ++ 1#1 := fld_join 25 1 2 h26 (fld_one h.1)
    simp [encodeArm, bits_condAt hc, push_top w, push_next, h25, fld_one h.2]
  have hoff : (offset2At w).bits = fld 0 12 w := bits_offset2At (by simpa using hundef)
  refine spells_ite (fun h => ?_) fun hidx => ?_
  · have h20 {k l : BitVec 1} (h22 : fld 22 1 w = k) (h20 : fld 20 1 w = l) : fld 20 3 w = (k ++ 1#1) ++ l :=
      fld_join 20 1 2 (fld_join 21 1 1 h22 (fld_one h.2)) h20
    refine spells_iteFlag (fun hl => spells_iteFlag (fun hb => ⟨rfl, ?_⟩) fun hb => ⟨rfl, ?_⟩)
      fun hl => spells_iteFlag (fun hb => ⟨rfl, ?_⟩) fun hb => ⟨rfl, ?_⟩
    all_goals simp [encodeArm, bits_condAt hc, hoff, push_top w, push_next, h26, fld_one h.1, h20 hb hl]
  · have hok := mode2IndexOk_indexAt hidx
    refine spells_iteFlag (fun hl => spells_iteFlag (fun hb => ⟨hok, ?_⟩) fun hb => ⟨hok, ?_⟩)
      fun hl => spells_iteFlag (fun hb => ⟨hok, ?_⟩) fun hb => ⟨hok, ?_⟩
    all_goals simp [encodeArm, bits_condAt hc, hoff, push_top w, push_next, h26, hl, hb]

/-- Bits 27:25 = 100: LDM and STM. -/
theorem decode100_spells {w : Word} (hc : fld 28 4 w ≠ 0b1111#4) (h25 : fld 25 3 w = 0b100#3) :
    Spells encodeArm w (decode100 w) := by
  unfold decode100
  refine spells_iteFlag
    (fun h20 => spells_iteFlag (fun h22 => spells_iteFlag (fun h15 => ⟨rfl, ?_⟩) fun h15 => ⟨rfl, ?_⟩)
      fun h22 => ⟨rfl, ?_⟩)
    fun h20 => spells_iteFlag (fun h22 => ⟨rfl, ?_⟩) fun h22 => ⟨rfl, ?_⟩
  · simp [encodeArm, bits_condAt hc, push_top w, push_next, h25, h20, h22, h15]
  · simp [encodeArm, bits_condAt hc, push_top w, push_next, h25, h20, h22, h15]
  all_goals simp [encodeArm, bits_condAt hc, push_top w, push_next, h25, h20, h22]

/-- Bits 27:25 = 110: coprocessor transfers. -/
theorem decode110_spells {w : Word} (hc : fld 28 4 w ≠ 0b1111#4) (h25 : fld 25 3 w = 0b110#3) :
    Spells encodeArm w (decode110 w) := by
  unfold decode110
  refine spells_ite (fun hpuw => spells_iteFlag (fun h20 => ⟨hpuw, ?_⟩) fun h20 => ⟨hpuw, ?_⟩) fun hpuw => ?_
  · simp [encodeArm, bits_condAt hc, push_top w, push_next, h25, h20]
  · simp [encodeArm, bits_condAt hc, push_top w, push_next, h25, h20]
  simp only [Bool.or_eq_true, not_or, Bool.not_eq_true] at hpuw
  obtain ⟨⟨h24, h23⟩, h21⟩ := hpuw
  have h23 : fld 23 5 w = 0b11000#5 := fld_join 23 1 4 (fld_join 24 1 3 h25 (fld_one h24)) (fld_one h23)
  have row {k : BitVec 1} (h22 : fld 22 1 w = k) : fld 21 7 w = (0b11000#5 ++ k) ++ 0#1 :=
    fld_join 21 1 6 (fld_join 22 1 5 h23 h22) (fld_one h21)
  refine spells_iteFlag (fun h22 => spells_iteFlag (fun h20 => ⟨rfl, ?_⟩) fun h20 => ⟨rfl, ?_⟩) fun h22 => ⟨rfl, ?_⟩
  · have h : fld 20 8 w = 0b11000101#8 := fld_join 20 1 7 (row h22) h20
    simp [encodeArm, bits_condAt hc, push_top w, push_next, h]
  · have h : fld 20 8 w = 0b11000100#8 := fld_join 20 1 7 (row h22) h20
    simp [encodeArm, bits_condAt hc, push_top w, push_next, h]
  · simp [encodeArm, bits_condAt hc, push_top w, push_next, row h22]

/-- Bits 27:25 = 111: SWI and the coprocessor operations. -/
theorem decode111_spells {w : Word} (hc : fld 28 4 w ≠ 0b1111#4) (h25 : fld 25 3 w = 0b111#3) :
    Spells encodeArm w (decode111 w) := by
  unfold decode111
  refine spells_iteFlag (fun h24 => ⟨rfl, ?_⟩) fun h24 => ?_
  · have h : fld 24 4 w = 0b1111#4 := fld_join 24 1 3 h25 h24
    simp [encodeArm, bits_condAt hc, push_top w, push_next, h]
  · have h : fld 24 4 w = 0b1110#4 := fld_join 24 1 3 h25 h24
    refine spells_iteFlag (fun h4 => spells_iteFlag (fun h20 => ⟨rfl, ?_⟩) fun h20 => ⟨rfl, ?_⟩) fun h4 => ⟨rfl, ?_⟩
    · simp [encodeArm, bits_condAt hc, push_top w, push_next, h, h4, h20]
    · simp [encodeArm, bits_condAt hc, push_top w, push_next, h, h4, h20]
    · simp [encodeArm, bits_condAt hc, push_top w, push_next, h, h4]

/-- Bits 31:28 = 1111: the unconditional space. -/
theorem decodeUncond_spells {w : Word} (hc : fld 28 4 w = 0b1111#4) : Spells encodeArm w (decodeUncond w) := by
  have unalloc : encodeArm (.unallocUncond (fld 0 28 w)) = w := by
    simp [encodeArm, push_top w, hc, push_next]
  unfold decodeUncond
  refine spells_ite (fun h26 => spells_ite (fun h => ⟨rfl, ?_⟩) fun hpld => ⟨?_, unalloc⟩) fun h26 => ?_
  rotate_left
  · have other {s m : Nat} {k : BitVec (m + 2)} (hs : s + m = 26) (hk : fld m 2 k ≠ 0b01#2) : fld s (m + 2) w ≠ k := by
      rintro rfl
      rw [fld_fld _ _ _ _ _ (by omega), hs] at hk
      exact hk h26
    have h101 : fld 25 3 w ≠ 0b101#3 := other (m := 1) rfl (by decide)
    have h110 : fld 25 3 w ≠ 0b110#3 := other (m := 1) rfl (by decide)
    have h1110 : fld 24 4 w ≠ 0b1110#4 := other (m := 2) rfl (by decide)
    cases h24 : flag 24 w with
    | false => simp [WellFormed, unallocUncondOk, fld_fld, flag_fld, h26, h101, h110, h1110, h24]
    | true =>
      simpa [WellFormed, unallocUncondOk, fld_fld, flag_fld, h26, h101, h110, h1110, h24, imp_iff_not_or] using hpld
  rotate_left
  · simp only [Bool.and_eq_true, decide_eq_true_eq] at h
    obtain ⟨⟨h24, h20⟩, h12⟩ := h
    have h : fld 26 6 w = 0b111101#6 := fld_join 26 2 4 hc h26
    simp [encodeArm, push_top w, h, push_next, fld_one h24, h20, h12]
  refine spells_ite (fun h25 => ⟨rfl, ?_⟩) fun h101 => spells_ite (fun h25 => ?_) fun h110 => ?_
  · have h : fld 25 7 w = 0b1111101#7 := fld_join 25 3 4 hc h25
    simp [encodeArm, push_top w, h, push_next]
  · have h : fld 25 7 w = 0b1111110#7 := fld_join 25 3 4 hc h25
    refine spells_ite (fun hpuw => spells_iteFlag (fun h20 => ⟨hpuw, ?_⟩) fun h20 => ⟨hpuw, ?_⟩) fun hpuw => ⟨rfl, ?_⟩
    · simp [encodeArm, push_top w, h, push_next, h20]
    · simp [encodeArm, push_top w, h, push_next, h20]
    · simp only [Bool.or_eq_true, not_or, Bool.not_eq_true] at hpuw
      obtain ⟨⟨h24, h23⟩, h21⟩ := hpuw
      have h' : fld 23 9 w = 0b111111000#9 := fld_join 23 1 8 (fld_join 24 1 7 h (fld_one h24)) (fld_one h23)
      simp [encodeArm, push_top w, h', push_next, fld_one h21]
  refine spells_ite (fun h24 => ?_) fun h1110 => ⟨?_, unalloc⟩
  · have h : fld 24 8 w = 0b11111110#8 := fld_join 24 4 4 hc h24
    refine spells_iteFlag (fun h4 => spells_iteFlag (fun h20 => ⟨rfl, ?_⟩) fun h20 => ⟨rfl, ?_⟩) fun h4 => ⟨rfl, ?_⟩
    · simp [encodeArm, push_top w, h, push_next, h4, h20]
    · simp [encodeArm, push_top w, h, push_next, h4, h20]
    · simp [encodeArm, push_top w, h, push_next, h4]
  · simp [WellFormed, unallocUncondOk, fld_fld, h26, h101, h110, h1110]

/-- Every word. Where every other value of bits 27:25 is excluded they are 111. -/
theorem decodeArm_spells (w : Word) : Spells encodeArm w (decodeArm w) := by
  unfold decodeArm
  refine spells_ite decodeUncond_spells fun hc => spells_ite (decode01_spells hc) fun h26 => ?_
  refine spells_ite (decode000_spells hc) fun h000 => spells_ite (decode001_spells hc) fun h001 => ?_
  refine spells_ite (decode100_spells hc) fun h100 => spells_ite (fun h25 => ?_) fun h101 => ?_
  · refine spells_iteFlag (fun h24 => ⟨rfl, ?_⟩) fun h24 => ⟨rfl, ?_⟩
    · have h : fld 24 4 w = 0b1011#4 := fld_join 24 1 3 h25 h24
      simp [encodeArm, bits_condAt hc, push_top w, push_next, h]
    · have h : fld 24 4 w = 0b1010#4 := fld_join 24 1 3 h25 h24
      simp [encodeArm, bits_condAt hc, push_top w, push_next, h]
  · refine spells_ite (decode110_spells hc) fun h110 => decode111_spells hc ?_
    have not_01 {k : BitVec 3} (hk : fld 1 2 k = 0b01#2) : fld 25 3 w ≠ k :=
      fun h => h26 (((fld_split 25 3 1 w k (by decide)).mp h).1.trans hk)
    have h010 : fld 25 3 w ≠ 2#3 := not_01 (by decide)
    have h011 : fld 25 3 w ≠ 3#3 := not_01 (by decide)
    bv_omega

end Sys2Proof

/-! The Thumb decoder, part by part, as the ARM decoder above; together they settle O3. -/

namespace Sys2Proof

theorem isThumb_ite_true {c : Prop} [Decidable c] {a b : Instr} (ha : a.isThumb = true) (hb : b.isThumb = true) :
    (if c then a else b).isThumb = true := by
  split
  · exact ha
  · exact hb

theorem decodeThumb_isThumb (w : Half) : (decodeThumb w).isThumb = true := by
  unfold decodeThumb decodeThumb1011 decodeThumb01000
  repeat' apply isThumb_ite_true
  all_goals rfl

theorem decodeThumb1011_spells {w : Half} (h12 : fld 12 4 w = 0b1011#4) : Spells encodeThumb w (decodeThumb1011 w) := by
  have row {k : BitVec 3} (h : fld 9 3 w = k) : fld 9 7 w = 0b1011#4 ++ k := fld_join 9 3 4 h12 h
  unfold decodeThumb1011
  refine spells_ite (fun h => ?_) fun hsp => ?_
  · have h8 : fld 8 8 w = 0b10110000#8 := fld_join 8 1 7 (row h.1) (fld_one h.2)
    have h7 {k : BitVec 1} (h : fld 7 1 w = k) : fld 7 9 w = 0b10110000#8 ++ k := fld_join 7 1 8 h8 h
    refine spells_iteFlag (fun h => ⟨rfl, ?_⟩) fun h => ⟨rfl, ?_⟩
    all_goals simp [encodeThumb, push_top w, h7 h, push_next]
  refine spells_ite (fun h => ⟨rfl, ?_⟩) fun hpush => spells_ite (fun h => ⟨rfl, ?_⟩) fun hpop => ?_
  · simp [encodeThumb, push_top w, row h, push_next]
  · simp [encodeThumb, push_top w, row h, push_next]
  refine spells_ite (fun h => ⟨rfl, ?_⟩) fun hbkpt => ⟨?_, ?_⟩
  · have h8 : fld 8 8 w = 0b10111110#8 := fld_join 8 1 7 (row h.1) (fld_one h.2)
    simp [encodeThumb, push_top w, h8, push_next]
  · simp [WellFormed, tUndef1011Ok, fld_fld, flag_fld, hpush, hpop]
    grind
  · simp [encodeThumb, push_top w, h12, push_next]

theorem decodeThumb01000_spells {w : Half} (h11 : fld 11 5 w = 0b01000#5) :
    Spells encodeThumb w (decodeThumb01000 w) := by
  have row {b : BitVec 1} {k : BitVec 2} (h10 : fld 10 1 w = b) (h : fld 8 2 w = k) : fld 8 8 w = (0b01000#5 ++ b) ++ k :=
    fld_join 8 2 6 (fld_join 10 1 5 h11 h10) h
  have alu {k : BitVec 4} (h10 : fld 10 1 w = 0#1) (h : fld 6 4 w = k) : fld 6 10 w = 0b010000#6 ++ k :=
    fld_join 6 4 6 (fld_join 10 1 5 h11 h10) h
  unfold decodeThumb01000
  refine spells_iteFlag (fun h10 => ?_) fun h10 => ?_
  · iterate 3
      refine spells_ite (fun h => ⟨rfl, by simp [encodeThumb, push_top w, row h10 h, push_next]⟩) fun _ => ?_
    have h11 := (bitVec_two_cases (fld 8 2 w)).resolve_left ‹_› |>.resolve_left ‹_› |>.resolve_left ‹_›
    refine spells_iteFlag (fun h7 => ⟨rfl, ?_⟩) fun h7 => ⟨rfl, ?_⟩
    · have h : fld 7 9 w = 0b010001111#9 := fld_join 7 1 8 (row h10 h11) h7
      simp [encodeThumb, push_top w, h, push_next]
    · have h : fld 7 9 w = 0b010001110#9 := fld_join 7 1 8 (row h10 h11) h7
      simp [encodeThumb, push_top w, h, push_next]
  · iterate 15
      refine spells_ite (fun h => ⟨rfl, by simp [encodeThumb, push_top w, alu h10 h, push_next]⟩) fun _ => ?_
    have h : fld 6 4 w = 15#4 := by bv_omega
    exact ⟨rfl, by simp [encodeThumb, push_top w, alu h10 h, push_next]⟩

theorem decodeThumb_spells (w : Half) : Spells encodeThumb w (decodeThumb w) := by
  unfold decodeThumb
  refine spells_ite decodeThumb1011_spells fun h1011 => spells_ite (fun h12 => ?_) fun h1101 => ?_
  · refine spells_ite (fun h => ⟨rfl, ?_⟩) fun h14 => spells_ite (fun h => ⟨rfl, ?_⟩) fun h15 => ⟨?_, ?_⟩
    · have h8 : fld 8 8 w = 0b11011110#8 := fld_join 8 4 4 h12 h
      simp [encodeThumb, push_top w, h8, push_next]
    · have h8 : fld 8 8 w = 0b11011111#8 := fld_join 8 4 4 h12 h
      simp [encodeThumb, push_top w, h8, push_next]
    · have hal : condAt 8 w ≠ .al := by rwa [ne_eq, ← Cond.bits_eq_al, bits_condAt h15]
      simp [WellFormed, hal]
    · simp [encodeThumb, bits_condAt h15, push_top w, h12, push_next]
  refine spells_ite (fun h12 => ?_) fun h0101 => spells_ite (fun h11 => ?_) fun h00011 => ?_
  · have row {k : BitVec 3} (h : fld 9 3 w = k) : fld 9 7 w = 0b0101#4 ++ k := fld_join 9 3 4 h12 h
    iterate 7
      refine spells_ite (fun h => ⟨rfl, by simp [encodeThumb, push_top w, row h, push_next]⟩) fun _ => ?_
    have h : fld 9 3 w = 7#3 := by bv_omega
    exact ⟨rfl, by simp [encodeThumb, push_top w, row h, push_next]⟩
  · have row {k : BitVec 2} (h : fld 9 2 w = k) : fld 9 7 w = 0b00011#5 ++ k := fld_join 9 2 5 h11 h
    iterate 3
      refine spells_ite (fun h => ⟨rfl, by simp [encodeThumb, push_top w, row h, push_next]⟩) fun _ => ?_
    have h : fld 9 2 w = 3#2 := by bv_omega
    exact ⟨rfl, by simp [encodeThumb, push_top w, row h, push_next]⟩
  refine spells_ite decodeThumb01000_spells fun h01000 => spells_ite (fun h11 => ?_) fun h11101 => ?_
  · refine spells_iteFlag (fun h0 => ⟨rfl, ?_⟩) fun h0 => ⟨rfl, ?_⟩
    all_goals simp [encodeThumb, push_top w, h11, push_next, h0]
  iterate 22
    refine spells_ite (fun h => ⟨rfl, by simp [encodeThumb, push_top w, h, push_next]⟩) fun _ => ?_
  have h : fld 11 5 w = 0b11111#5 := by
    have other {k : BitVec 5} (hk : fld 12 4 w ≠ fld 1 4 k) : fld 11 5 w ≠ k :=
      fun e => hk ((fld_split 11 5 1 w k (by decide)).mp e).1
    have h22 : fld 11 5 w ≠ 22#5 := other h1011
    have h23 : fld 11 5 w ≠ 23#5 := other h1011
    have h26 : fld 11 5 w ≠ 26#5 := other h1101
    have h27 : fld 11 5 w ≠ 27#5 := other h1101
    have h10 : fld 11 5 w ≠ 10#5 := other h0101
    have h11 : fld 11 5 w ≠ 11#5 := other h0101
    bv_omega
  exact ⟨rfl, by simp [encodeThumb, push_top w, h, push_next]⟩

end Sys2Proof

section
open Sys2Proof

/-- Settles O3: the parts of the decoder give a word's own fields, which the encoder pushes into the same word
(`decodeArm_spells`, `decodeThumb_spells`). -/
theorem everyWordEncodesBack : Obligations.EveryWordEncodesBack :=
  ⟨fun w => ⟨decodeArm_isThumb w, decodeArm_spells w⟩, fun h => ⟨decodeThumb_isThumb h, decodeThumb_spells h⟩⟩

end

/-! Conditions (30_encoding.md R134, R135): where an instruction's condition stands in its word, and what an instruction
does when its condition fails (log entry 25). -/

namespace Sys2Proof.Machine

/-- The top field of an ARM instruction's word: its condition, or 1111 of an unconditional instruction. -/
theorem topField_encodeArm {i : Instr} (ht : i.isThumb = false) :
    fld 28 4 (encodeArm i) = (condOf i).bits ∨ (fld 28 4 (encodeArm i) = 0b1111#4 ∧ condOf i = .al) := by
  cases i with
  | pld | blxImm | unallocUncondCop | ldc2 | stc2 | cdp2 | mcr2 | mrc2 | unallocUncond =>
    exact .inr ⟨by simp [encodeArm, fld_push_hi, fld_push_lo], rfl⟩
  | nop => exact .inl (by decide)
  | mul | mla | umull | umlal | smull | smlal | swp | swpb | unallocMulSwp | strh | ldrd | strd | ldrh | ldrsb | ldrsh
  | mrs | msrReg | bx | blxReg | clz | qadd | qsub | qdadd | qdsub | bkpt | smlaXY | smlawY | smulwY | smlalXY | smulXY
  | unallocMisc | msrImm | unalloc00110 | armAnd | armEor | armSub | armRsb | armAdd | armAdc | armSbc | armRsc | armTst
  | armTeq | armCmp | armCmn | armOrr | armMov | armBic | armMvn | undefArm | ldrt | ldrbt | strt | strbt | ldr | ldrb
  | str | strb | ldm1 | ldm2 | ldm3 | stm1 | stm2 | b | bl | mcrr | mrrc | unallocCop | ldc | stc | cdp | mcr | mrc
  | armSwi =>
    exact .inl (by simp [encodeArm, condOf, fld_push_hi, fld_push_lo, fld_zero])
  | _ => cases ht

theorem whenPassed_of_failed {c : Cond} {s : State} (h : condPassed c s.cpsr = false) (r : Result) :
    whenPassed c s r = .next (advance 4 s) := by simp [whenPassed, h]

/-- A failed condition comes before every check of the instruction's form and space (log entry 25). -/
theorem exec_of_failed {i : Instr} {s : State} (h : condPassed (condOf i) s.cpsr = false) :
    exec i s = .next (advance (if i.isThumb then 2 else 4) s) := by
  cases i with
  | mul | mla | umull | umlal | smull | smlal | swp | swpb | unallocMulSwp | strh | ldrd | strd | ldrh | ldrsb | ldrsh
  | mrs | msrReg | bx | blxReg | clz | qadd | qsub | qdadd | qdsub | bkpt | smlaXY | smlawY | smulwY | smlalXY | smulXY
  | unallocMisc | msrImm | unalloc00110 | armAnd | armEor | armSub | armRsb | armAdd | armAdc | armSbc | armRsc | armTst
  | armTeq | armCmp | armCmn | armOrr | armMov | armBic | armMvn | undefArm | ldrt | ldrbt | strt | strbt | ldr | ldrb
  | str | strb | ldm1 | ldm2 | ldm3 | stm1 | stm2 | b | bl | mcrr | mrrc | unallocCop | ldc | stc | cdp | mcr | mrc
  | armSwi => exact whenPassed_of_failed h _
  | tBCond c simm8 =>
    have h' : condPassed c s.cpsr = false := h
    show execTBCond c simm8 s = _
    rw [execTBCond, h']
    rfl
  | _ => cases h

end Sys2Proof.Machine

section
open Sys2Proof Sys2Proof.Machine

/-- Settles O14: the condition is the top field of the word (`topField_encodeArm`), and every meaning tests it first
(`exec_of_failed`). -/
theorem failedConditionOnlyAdvances : Obligations.FailedConditionOnlyAdvances := by
  refine ⟨rfl, fun c p => by cases c <;> rfl, fun i => ⟨fun ht hne => ?_, fun ht h15 => ?_, fun ht => ?_⟩, fun i s h => ?_⟩
  · exact ((topField_encodeArm ht).resolve_right fun h => hne h.1).symm
  · rcases topField_encodeArm ht with h | h
    · exact absurd (h.symm.trans h15) (Cond.bits_ne _)
    · exact h.2
  · cases i <;> cases ht <;> rfl
  · exact ⟨_, exec_of_failed h, writesFlags_advance s _⟩

/-- Settles O13: what remains of an unallocated row is its condition. -/
theorem unallocatedWordsAreRefused : Obligations.UnallocatedWordsAreRefused := by
  refine fun s => ⟨fun _ _ => rfl, fun _ => rfl, fun c op op2 mid lo low r rest rest21 i hi => ?_⟩
  simp only [List.mem_cons, List.not_mem_nil, or_false] at hi
  obtain rfl | rfl | rfl | rfl := hi
  all_goals exact ⟨fun h => whenPassed_of_passed h _, fun h => ⟨_, exec_of_failed h, writesFlags_advance s 4⟩⟩

end

/-! Forms that stop (30_encoding.md R150; 93_implementation_defined.md section 2): the checks of the shared meanings, then
the forms of each instruction. -/

namespace Sys2Proof.Machine

section
variable {c : Cond} {s : State}

/-- The first check of a conditional instruction. -/
theorem refused_first (hc : condPassed c s.cpsr = true) {p : Prop} [Decidable p] {e : Refusal} {r : Result} (hp : p) :
    whenPassed c s (if p then .refused e else r) = .refused e := by
  rw [whenPassed_of_passed hc, if_pos hp]

/-- The second check, once the first lets the form through. -/
theorem refused_second (hc : condPassed c s.cpsr = true) {p q : Prop} [Decidable p] [Decidable q] {e e' : Refusal}
    {r : Result} (hp : ¬ p) (hq : q) :
    whenPassed c s (if p then .refused e else if q then .refused e' else r) = .refused e' := by
  rw [whenPassed_of_passed hc, if_neg hp, if_pos hq]

theorem anyPc_iff {rs : List Reg} : anyPc rs = true ↔ 15 ∈ rs := by simp [anyPc]

theorem multiplyOp_registers (hc : condPassed c s.cpsr = true) {ok clash : Bool} {regs : List Reg} {u : State}
    (hok : ok = true) (h : 15 ∈ regs ∨ clash = true) : multiplyOp c ok regs clash s u = .refused .multiplyRegisters :=
  refused_second hc (by simp [hok]) (by simpa [anyPc_iff] using h)

theorem swapOp_registers (hc : condPassed c s.cpsr = true) {z : Size} {rn rd rm : Reg} {old : Word}
    (h : (rn = 15 ∨ rd = 15 ∨ rm = 15) ∨ rn = rm ∨ rn = rd) :
    swapOp c z rn rd 0 rm old s = .refused .loadStoreRegisters :=
  refused_second hc (by simp) (by simp [anyPc]; tauto)

theorem mode3_sbzSbo (hc : condPassed c s.cpsr = true) {idx : Index} {rn rd : Reg} {off : Offset3} {aligned : Bool}
    {r : Result} (h : offset3Sbz off = false) : mode3 c idx rn rd off aligned s r = .refused .sbzSbo :=
  refused_first hc (by simp [h])

theorem mode3_registers (hc : condPassed c s.cpsr = true) {idx : Index} {rn rd : Reg} {off : Offset3} {aligned : Bool}
    {r : Result} (hsbz : offset3Sbz off = true) (h : loadStoreAllowed idx rn rd (offset3Reg off) false = false) :
    mode3 c idx rn rd off aligned s r = .refused .loadStoreRegisters :=
  refused_second hc (by simp [hsbz]) (by simp [h])

theorem copOp_accept {cp : BitVec 4} {first second : Word} {more : List Word} {k : Word → Word → List Word → Result}
    (h : copAnswer s cp = .accept first second more) : copOp cp s k = k first second more := by
  rw [copOp, h]

/-- A conditional instruction for a coprocessor other than 14 that accepts. -/
theorem whenPassed_accept (hc : condPassed c s.cpsr = true) {cp : BitVec 4} (hcp : cp ≠ 14) {first second : Word}
    {more : List Word} {r : Result} {k : Word → Word → List Word → Result}
    (h : copAnswer s cp = .accept first second more) :
    whenPassed c s (if cp = 14 then r else copOp cp s k) = k first second more := by
  rw [whenPassed_of_passed hc, if_neg hcp, copOp_accept h]

/-- r15 as a base that LDC writes back (U24), once the coprocessor accepts (log entry 51). -/
theorem ldcOp_r15Operand {p u : Bool} {cp : BitVec 4} {offset8 : BitVec 8} {i : Instr} (hcp : cp ≠ 14)
    {first second : Word} {more : List Word} (h : copAnswer s cp = .accept first second more) :
    ldcOp p u true 15 cp offset8 i s = .refused .r15Operand := by
  rw [ldcOp, if_neg hcp, if_neg (by simp), copOp_accept h]
  exact if_pos ⟨rfl, rfl⟩

/-- The same for STC. -/
theorem stcOp_r15Operand {p u : Bool} {cp : BitVec 4} {offset8 : BitVec 8} {i : Instr} (hcp : cp ≠ 14)
    {first second : Word} {more : List Word} (h : copAnswer s cp = .accept first second more) :
    stcOp p u true 15 cp offset8 i s = .refused .r15Operand := by
  rw [stcOp, if_neg hcp, if_neg (by simp), copOp_accept h]
  exact if_pos ⟨rfl, rfl⟩

theorem operand2Allowed_shiftReg {regs : List Reg} {rs rm : Reg} {kind : ShiftKind} (h : 15 ∈ rs :: rm :: regs) :
    operand2Allowed regs (.shiftReg rs kind rm) = false := by
  rw [operand2Allowed, Bool.not_eq_false', anyPc_iff]
  exact h

/-- A base write-back whose base is r15, the register transferred or the offset register is refused (R294). -/
theorem loadStoreAllowed_of_base {idx : Index} {rn rd : Reg} {rm : Option Reg} {pcOk : Bool} (hidx : idx ≠ .offset)
    (h : rn = 15 ∨ rd = rn ∨ rm = some rn) : loadStoreAllowed idx rn rd rm pcOk = false := by
  have hw : Index.writesBase idx = true := by
    cases idx with
    | offset => exact absurd rfl hidx
    | _ => rfl
  rw [Bool.eq_false_iff, ne_eq, loadStoreAllowed_iff]
  rintro ⟨_, _, _, hbase⟩
  obtain ⟨h15, hrm, hrd⟩ := hbase hw
  tauto

end

end Sys2Proof.Machine

section
open Sys2Proof Sys2Proof.Machine

/-- Settles O59: the checks of the shared meanings, one form at a time. -/
theorem unpredictableFormsAreRefused : Obligations.UnpredictableFormsAreRefused := by
  intro c sf rn rd rs rm sbz sbo kind am list list15 w u idx off s hc
  refine ⟨fun h => ?_, fun h => ⟨?_, ?_, ?_, ?_⟩, fun h => ⟨?_, ?_⟩, fun h => ⟨?_, ?_, ?_⟩, fun h => ⟨?_, ?_⟩,
    fun h => ⟨?_, ?_⟩, ⟨?_, ?_⟩, fun hl h => ?_, fun hl h => ?_, fun hl h => ?_⟩
  · exact refused_second hc (by simp) (by
      rw [operand2Allowed_shiftReg (by rcases h with rfl | rfl | rfl | rfl <;> simp)]
      rfl)
  · exact refused_first hc (by simpa using h)
  · exact refused_first hc (by simpa using h)
  · exact refused_first hc (by simpa using h)
  · exact refused_first hc (by simpa using h)
  · exact refused_first hc (by simpa using h)
  · exact refused_first hc (by simpa using h)
  · exact multiplyOp_registers hc rfl (by rcases h with rfl | rfl | rfl | rfl <;> simp)
  · exact multiplyOp_registers hc rfl (by rcases h with rfl | rfl | rfl | rfl <;> simp)
  · exact multiplyOp_registers hc rfl (by rcases h with rfl | rfl | rfl | rfl <;> simp [longClash])
  · exact swapOp_registers hc (by rcases h with rfl | rfl | rfl <;> simp)
  · exact swapOp_registers hc (by rcases h with rfl | rfl | rfl <;> simp)
  · exact refused_first hc (by simp [loadStoreAllowed_of_base h.1 h.2])
  · exact refused_first hc (by simp [loadStoreAllowed_of_base h.1 h.2])
  · exact refused_first hc rfl
  · exact refused_first hc rfl
  · exact refused_second hc hl (by simpa [blockAllowed] using h)
  · exact refused_second hc hl (by simpa [blockAllowed, or_assoc] using h)
  · exact refused_second hc hl (by simpa [blockAllowed, or_assoc] using h)

/-- Settles O60: the checks of the shared meanings, clause by clause. -/
theorem forbiddenRegistersAreRefused : Obligations.ForbiddenRegistersAreRefused := by
  intro c sf y x u n p rd rn rs rm cp opc crm mask crd offset8 idx off off3 op2 sbz3 am list list15 first second
    more s hc refused mode3
  simp only [refused, mode3, List.forall_mem_cons, List.not_mem_nil, false_implies, implies_true, and_true]
  refine ⟨fun h => ?_, fun h => ?_, fun h => ?_, fun h => ?_, fun h => ?_, fun h => ⟨?_, ?_⟩, fun h => ?_, ?_, fun h => ?_,
    fun h => ?_, fun h => ?_, fun h => ?_, fun h => ?_, fun h => ?_, fun hl => ?_, ?_, fun h => ?_, fun h => ?_, fun h => ?_,
    fun h => ?_, fun h => ?_, fun hs h => ?_, fun hcp ha => ⟨fun h => ?_, fun h => ?_, ?_⟩⟩
  · and_intros
    all_goals exact multiplyOp_registers hc rfl (.inl (by rcases h with rfl | rfl | rfl | rfl <;> simp))
  · and_intros
    all_goals exact multiplyOp_registers hc rfl (.inl (by rcases h with rfl | rfl | rfl <;> simp))
  · and_intros
    all_goals exact multiplyOp_registers hc rfl (.inr (by simpa using h))
  · and_intros
    all_goals exact multiplyOp_registers hc rfl (.inr (by simpa [longClash, or_assoc] using h))
  · exact multiplyOp_registers hc rfl (.inr (by simpa using h))
  · and_intros
    all_goals exact multiplyOp_registers hc rfl (.inl (by rcases h with rfl | rfl | rfl <;> simp))
  · and_intros
    all_goals exact swapOp_registers hc (.inl h)
  · exact refused_second hc (by simp) (by rcases h with rfl | rfl <;> simp [anyPc])
  · and_intros
    all_goals exact refused_second hc (by simp) (by simp [anyPc])
  · and_intros
    all_goals exact refused_first hc (by simpa using h)
  · and_intros
    all_goals exact refused_first hc (by simpa using h)
  · and_intros
    all_goals exact if_pos (by simpa using h)
  · and_intros
    all_goals exact refused_second hc (by simp) (by simp [h])
  · and_intros
    all_goals exact refused_second hc (by simp) (by simp [h])
  · and_intros
    all_goals exact refused_second hc (by simp) (by simp [h])
  · and_intros
    all_goals exact refused_second hc hl (by simp [blockAllowed])
  · exact refused_first hc (by simp [blockAllowed])
  · exact refused_first hc (by rw [h, Bool.and_self, Bool.or_true])
  · and_intros
    all_goals exact refused_first hc (by simp [h])
  · and_intros
    all_goals exact refused_first hc (by simp [h])
  · and_intros
    all_goals exact refused_first hc (by simp [h])
  · and_intros
    all_goals exact mode3_sbzSbo hc h
  · and_intros
    all_goals exact mode3_registers hc hs h
  · have h15 : anyPc [rd, rn] = true := by rcases h with rfl | rfl <;> simp [anyPc]
    exact ⟨(whenPassed_accept hc hcp ha).trans (if_pos h15), (whenPassed_accept hc hcp ha).trans (if_pos h15)⟩
  · exact (whenPassed_accept hc hcp ha).trans ((if_neg (by simpa [anyPc] using h)).trans (if_pos rfl))
  · refine ⟨?_, ?_, ldcOp_r15Operand hcp ha, stcOp_r15Operand hcp ha⟩
    · exact (whenPassed_of_passed hc _).trans (ldcOp_r15Operand hcp ha)
    · exact (whenPassed_of_passed hc _).trans (stcOp_r15Operand hcp ha)

end

/-! Sums, flags and the shifter (40_arm_data_processing.md R191 to R194): `addWithCarry` by its value, carry and
overflow, the flag writers bit by bit, and each shift bit by bit. -/

namespace Sys2Proof.Machine

/-! `AddWithCarry` (R194). -/

theorem addWithCarry_value (x y : Word) (k : Bool) : (addWithCarry x y k).value = x + y + (if k then 1 else 0) := by
  apply BitVec.eq_of_toNat_eq
  cases k <;> simp [addWithCarry]

theorem addWithCarry_carry (x y : Word) (k : Bool) :
    (addWithCarry x y k).carry = decide (2 ^ 32 ≤ x.toNat + y.toNat + (if k then 1 else 0)) := by
  cases k <;> rfl

theorem toInt_word_bounds (x : Word) : -2147483648 ≤ x.toInt ∧ x.toInt < 2147483648 :=
  ⟨BitVec.le_toInt x, BitVec.toInt_lt⟩

/-- The value as a signed word: the signed sum, wrapped. -/
theorem addWithCarry_value_toInt (x y : Word) (k : Bool) :
    (addWithCarry x y k).value.toInt = (x.toInt + y.toInt + (k.toNat : Int)).bmod (2 ^ 32) := by
  rw [addWithCarry_value, BitVec.toInt_add, BitVec.toInt_add, Int.bmod_add_bmod]
  cases k <;> rfl

/-- A sum of signed words keeps its value when wrapped exactly where it fits a signed word. -/
theorem bmod_ne_iff {z : Int} : z.bmod (2 ^ 32) ≠ z ↔ z < -(2 ^ 31) ∨ 2 ^ 31 - 1 < z := by
  rw [ne_eq, Int.bmod_eq_iff (by decide)]
  omega

/-- Overflow: the value is not the signed sum. -/
theorem addWithCarry_overflow (x y : Word) (k : Bool) :
    (addWithCarry x y k).overflow =
      decide ((addWithCarry x y k).value.toInt ≠ x.toInt + y.toInt + (if k then 1 else 0)) := by
  have carryIn : ((if k then 1 else 0 : Int)) = (k.toNat : Int) := by cases k <;> rfl
  rw [addWithCarry_value_toInt, carryIn]
  exact decide_eq_decide.mpr bmod_ne_iff.symm

/-- `AddWithCarry(x, NOT y, k)` subtracts, with a borrow where `k` is clear. -/
theorem addWithCarry_not_value (x y : Word) (k : Bool) :
    (addWithCarry x (~~~y) k).value = x - y - (1 - (if k then 1 else 0)) := by
  rw [addWithCarry_value]
  cases k <;> simp only [if_true, Bool.false_eq_true, if_false] <;> bv_omega

theorem addWithCarry_sub_value (x y : Word) : (addWithCarry x (~~~y) true).value = x - y := by
  simp [addWithCarry_not_value]

theorem addWithCarry_add_value (x y : Word) : (addWithCarry x y false).value = x + y := by
  simp [addWithCarry_value]

/-- C of a subtraction: there is no borrow. -/
theorem addWithCarry_sub_carry (x y : Word) : (addWithCarry x (~~~y) true).carry = decide (y ≤ x) := by
  rw [addWithCarry_carry, BitVec.toNat_not, decide_eq_decide, BitVec.le_def, if_pos rfl]
  have := y.isLt
  omega

theorem toInt_not_word (y : Word) : (~~~y).toInt = -y.toInt - 1 := by
  have := toInt_word_bounds y
  rw [BitVec.toInt_not, BitVec.toInt_eq_toNat_cond, Int.bmod_eq_iff (by decide)]
  have := y.isLt
  split <;> omega

theorem addWithCarry_sub_overflow (x y : Word) :
    (addWithCarry x (~~~y) true).overflow = decide ((x - y).toInt ≠ x.toInt - y.toInt) := by
  have difference : x.toInt + (~~~y).toInt + 1 = x.toInt - y.toInt := by
    rw [toInt_not_word]
    omega
  rw [addWithCarry_overflow, addWithCarry_sub_value, if_pos rfl, difference]

/-! The flag writers (R194; 41_arm_multiply_dsp.md R239). -/

section
variable (p : Word) {i : Nat}

theorem flag_setNZ (n z : Bool) (hi : i < 32) :
    flag i (setNZ p n z) = if i = 31 then n else if i = 30 then z else flag i p := by
  rw [setNZ, flag_setBit _ _ _ _ hi, flag_setBit _ _ _ _ hi]
  grind

theorem flag_setNZC (n z c : Bool) (hi : i < 32) :
    flag i (setNZC p n z c) = if i = 31 then n else if i = 30 then z else if i = 29 then c else flag i p := by
  rw [setNZC, flag_setBit _ _ _ _ hi, flag_setNZ _ _ _ hi]
  grind

theorem flag_setNZCV (n z c o : Bool) (hi : i < 32) :
    flag i (setNZCV p n z c o) =
      if i = 31 then n else if i = 30 then z else if i = 29 then c else if i = 28 then o else flag i p := by
  rw [setNZCV, flag_setBit _ _ _ _ hi, flag_setNZC _ _ _ _ hi]
  grind

theorem flag_stickyQ (o : Bool) (hi : i < 32) : flag i (stickyQ p o) = if i = 27 then o || flag 27 p else flag i p := by
  cases o with
  | false =>
    rw [stickyQ, if_neg Bool.false_ne_true, Bool.false_or]
    split
    · rw [‹i = 27›]
    · rfl
  | true =>
    rw [stickyQ, if_pos rfl, flag_setBit _ _ _ _ hi, Bool.true_or]
    simp only [eq_comm]

end

/-! Shifts and rotations by an amount, bit by bit. -/

section
variable (m : Word) (n : Nat) {i : Nat}

theorem flag_shiftLeft (hi : i < 32) : flag i (m <<< n) = (decide (n ≤ i) && flag (i - n) m) := by
  rw [flag, BitVec.getLsbD_shiftLeft]
  grind [flag]

theorem flag_shiftRight : flag i (m >>> n) = flag (i + n) m := by
  rw [flag, BitVec.getLsbD_ushiftRight, Nat.add_comm]
  rfl

theorem msb_eq_flag : m.msb = flag 31 m := BitVec.msb_eq_getLsbD_last m

theorem flag_sshiftRight (hi : i < 32) :
    flag i (m.sshiftRight n) = if 32 ≤ i + n then flag 31 m else flag (i + n) m := by
  rw [flag, BitVec.getLsbD_sshiftRight, msb_eq_flag]
  grind [flag]

/-- An arithmetic shift by 31 leaves the sign in every bit, as one by 32 or more would. -/
theorem flag_sshiftRight_31 (hi : i < 32) : flag i (m.sshiftRight 31) = flag 31 m := by
  rw [flag_sshiftRight m 31 hi]
  grind

theorem flag_rotateRight (hi : i < 32) : flag i (m.rotateRight n) = flag ((i + n) % 32) m := by
  rw [flag, BitVec.getLsbD_rotateRight]
  grind [flag]

end

end Sys2Proof.Machine

/-! The shifter operand, form by form (40_arm_data_processing.md R191 to R193). -/

namespace Sys2Proof.Machine

section
variable (k : Bool) (m : Word) {i : Nat}

theorem rotatedImm_bits (rot : BitVec 4) (imm8 : BitVec 8) (hi : i < 32) :
    flag i (rotatedImm k rot imm8).value = flag ((i + 2 * rot.toNat) % 32) (zext imm8) ∧
    (rotatedImm k rot imm8).carry = (if rot = 0 then k else flag 31 (rotatedImm k rot imm8).value) := by
  refine ⟨flag_rotateRight _ _ hi, ?_⟩
  rw [← msb_eq_flag]
  rfl

/-! By an immediate (R192): an amount of 0 has a meaning of its own. -/

section
variable (amount : BitVec 5)

theorem toNat_eq_zero_iff {w : Nat} (x : BitVec w) : x.toNat = 0 ↔ x = 0 := by
  simp [← BitVec.toNat_inj]

theorem shiftByImm_lsl (hi : i < 32) :
    flag i (shiftByImm k .lsl m amount).value = (decide (amount.toNat ≤ i) && flag (i - amount.toNat) m) ∧
    (shiftByImm k .lsl m amount).carry = (if amount = 0 then k else flag (32 - amount.toNat) m) := by
  by_cases h0 : amount = 0
  · subst h0
    exact ⟨by simp [shiftByImm], rfl⟩
  · simp only [shiftByImm, toNat_eq_zero_iff, if_neg h0]
    exact ⟨flag_shiftLeft m _ hi, rfl⟩

theorem shiftByImm_lsr :
    flag i (shiftByImm k .lsr m amount).value = (decide (amount ≠ 0) && flag (i + amount.toNat) m) ∧
    (shiftByImm k .lsr m amount).carry = (if amount = 0 then flag 31 m else flag (amount.toNat - 1) m) := by
  by_cases h0 : amount = 0
  · subst h0
    exact ⟨BitVec.getLsbD_zero, msb_eq_flag m⟩
  · simp only [shiftByImm, toNat_eq_zero_iff, if_neg h0, decide_eq_true h0, Bool.true_and]
    exact ⟨flag_shiftRight m _, rfl⟩

theorem shiftByImm_asr (hi : i < 32) :
    flag i (shiftByImm k .asr m amount).value =
      (if amount = 0 ∨ 32 ≤ i + amount.toNat then flag 31 m else flag (i + amount.toNat) m) ∧
    (shiftByImm k .asr m amount).carry = (if amount = 0 then flag 31 m else flag (amount.toNat - 1) m) := by
  by_cases h0 : amount = 0
  · subst h0
    exact ⟨flag_sshiftRight_31 m hi, msb_eq_flag m⟩
  · simp only [shiftByImm, toNat_eq_zero_iff, h0, if_false, false_or]
    exact ⟨flag_sshiftRight m _ hi, rfl⟩

/-- The amount 0 is RRX: C comes in at the top. -/
theorem shiftByImm_ror (hi : i < 32) :
    flag i (shiftByImm k .ror m amount).value =
      (if amount = 0 then (if i = 31 then k else flag (i + 1) m) else flag ((i + amount.toNat) % 32) m) ∧
    (shiftByImm k .ror m amount).carry = (if amount = 0 then flag 0 m else flag (amount.toNat - 1) m) := by
  by_cases h0 : amount = 0
  · subst h0
    refine ⟨?_, rfl⟩
    show flag i (setBit (m >>> 1) 31 k) = if i = 31 then k else flag (i + 1) m
    rw [flag_setBit _ _ _ _ hi, flag_shiftRight]
    simp only [eq_comm]
  · simp only [shiftByImm, toNat_eq_zero_iff, if_neg h0]
    exact ⟨flag_rotateRight m _ hi, rfl⟩

end

/-! By the low byte of a register (R193): below 32, at 32, and above. -/

section
variable (amount : Byte)

theorem shiftByReg_zero (kind : ShiftKind) (h : amount.toNat = 0) : shiftByReg k kind m amount = ⟨m, k⟩ := if_pos h

theorem shiftByReg_lsl (hi : i < 32) (h : 0 < amount.toNat) :
    flag i (shiftByReg k .lsl m amount).value = (decide (amount.toNat ≤ i) && flag (i - amount.toNat) m) ∧
    (shiftByReg k .lsl m amount).carry = (decide (amount.toNat ≤ 32) && flag (32 - amount.toNat) m) := by
  simp only [shiftByReg, if_neg h.ne']
  obtain below | at32 | above := lt_trichotomy amount.toNat 32
  · rw [if_pos below, decide_eq_true below.le]
    exact ⟨flag_shiftLeft m _ hi, rfl⟩
  · simp [at32, flag, hi]
  · have outside : ¬ amount.toNat ≤ i := by omega
    simp [above.not_gt, above.ne', above.not_ge, outside, flag]

theorem shiftByReg_lsr (h : 0 < amount.toNat) :
    flag i (shiftByReg k .lsr m amount).value = flag (i + amount.toNat) m ∧
    (shiftByReg k .lsr m amount).carry = flag (amount.toNat - 1) m := by
  simp only [shiftByReg, if_neg h.ne']
  obtain below | at32 | above := lt_trichotomy amount.toNat 32
  · rw [if_pos below]
    exact ⟨flag_shiftRight m _, rfl⟩
  · rw [at32, flag_eq_of_ge (i + 32) m (by omega), ← msb_eq_flag]
    exact ⟨BitVec.getLsbD_zero, rfl⟩
  · rw [if_neg above.not_gt, if_neg above.ne', flag_eq_of_ge _ m (by omega), flag_eq_of_ge _ m (by omega)]
    exact ⟨BitVec.getLsbD_zero, rfl⟩

theorem shiftByReg_asr (hi : i < 32) (h : 0 < amount.toNat) :
    flag i (shiftByReg k .asr m amount).value =
      (if 32 ≤ i + amount.toNat then flag 31 m else flag (i + amount.toNat) m) ∧
    (shiftByReg k .asr m amount).carry = (if 32 ≤ amount.toNat then flag 31 m else flag (amount.toNat - 1) m) := by
  simp only [shiftByReg, if_neg h.ne']
  obtain below | limit := lt_or_ge amount.toNat 32
  · rw [if_pos below, if_neg (not_le.mpr below)]
    exact ⟨flag_sshiftRight m _ hi, rfl⟩
  · rw [if_neg (not_lt.mpr limit), if_pos limit, if_pos (by omega : 32 ≤ i + amount.toNat)]
    exact ⟨flag_sshiftRight_31 m hi, msb_eq_flag m⟩

/-- A rotation goes by the amount modulo 32. -/
theorem shiftByReg_ror (hi : i < 32) (h : 0 < amount.toNat) :
    flag i (shiftByReg k .ror m amount).value = flag ((i + amount.toNat) % 32) m ∧
    (shiftByReg k .ror m amount).carry = flag ((amount.toNat - 1) % 32) m := by
  simp only [shiftByReg, if_neg h.ne']
  by_cases whole : amount.toNat % 32 = 0
  · rw [if_pos whole, msb_eq_flag, show (i + amount.toNat) % 32 = i by omega,
      show (amount.toNat - 1) % 32 = 31 by omega]
    exact ⟨rfl, rfl⟩
  · rw [if_neg whole, flag_rotateRight m _ hi, Nat.add_mod_mod,
      show (amount.toNat - 1) % 32 = amount.toNat % 32 - 1 by omega]
    exact ⟨rfl, rfl⟩

end

end

end Sys2Proof.Machine

section
open Sys2Proof Sys2Proof.Machine

/-- Settles O19: `addWithCarry_value` to `addWithCarry_sub_overflow` for the sum, and one lemma
for each flag writer. -/
theorem carryOverflowAndFlagBits : Obligations.CarryOverflowAndFlagBits :=
  ⟨fun x y k => ⟨addWithCarry_value x y k, addWithCarry_carry x y k, addWithCarry_overflow x y k,
      addWithCarry_sub_value x y, addWithCarry_sub_carry x y, addWithCarry_sub_overflow x y⟩,
    fun p _ _ o _ _ hi => ⟨flag_setNZC p _ _ _ hi, flag_setNZ p _ _ hi, flag_setNZCV p _ _ _ _ hi, flag_stickyQ p o hi⟩⟩

/-- Settles O20: what a register operand reads holds by definition; the bits are those of each form
and kind of shift. -/
theorem shifterOperand : Obligations.ShifterOperand := by
  refine ⟨fun _ _ _ _ _ _ _ => ⟨rfl, rfl, rfl⟩, fun k m amount rot imm8 i hi => ?_,
    fun k m amount i hi => ⟨?_, fun h => ?_⟩⟩
  · obtain ⟨rotV, rotC⟩ := rotatedImm_bits k rot imm8 hi
    obtain ⟨lslV, lslC⟩ := shiftByImm_lsl k m amount hi
    obtain ⟨lsrV, lsrC⟩ := shiftByImm_lsr k m (i := i) amount
    obtain ⟨asrV, asrC⟩ := shiftByImm_asr k m amount hi
    obtain ⟨rorV, rorC⟩ := shiftByImm_ror k m amount hi
    exact ⟨rotV, rotC, lslV, lslC, lsrV, lsrC, asrV, asrC, rorV, rorC⟩
  · exact fun h kind => shiftByReg_zero k m amount kind h
  · obtain ⟨lslV, lslC⟩ := shiftByReg_lsl k m amount hi h
    obtain ⟨lsrV, lsrC⟩ := shiftByReg_lsr k m (i := i) amount h
    obtain ⟨asrV, asrC⟩ := shiftByReg_asr k m amount hi h
    obtain ⟨rorV, rorC⟩ := shiftByReg_ror k m amount hi h
    exact ⟨lslV, lslC, lsrV, lsrC, asrV, asrC, rorV, rorC⟩

end

/-! Data processing (40_arm_data_processing.md R194 to R213): when a second operand may be used, and how the shared
meanings end. -/

namespace Sys2Proof.Machine

/-- R195: only a shift by a register forbids r15, in any place. -/
theorem operand2Allowed_iff {regs : List Reg} {op2 : Operand2} : operand2Allowed regs op2 = true ↔
    ∀ rs kind rm, op2 = .shiftReg rs kind rm → rs ≠ 15 ∧ rm ≠ 15 ∧ ∀ r ∈ regs, r ≠ 15 := by
  cases op2 with
  | imm rot imm8 => exact ⟨fun _ _ _ _ => nofun, fun _ => rfl⟩
  | shiftImm amount kind rm => exact ⟨fun _ _ _ _ => nofun, fun _ => rfl⟩
  | shiftReg rs kind rm =>
    have allowed : operand2Allowed regs (.shiftReg rs kind rm) = true ↔ rs ≠ 15 ∧ rm ≠ 15 ∧ ∀ r ∈ regs, r ≠ 15 := by
      simp [operand2Allowed, anyPc]
    rw [allowed]
    refine ⟨?_, fun h => h rs kind rm rfl⟩
    rintro h _ _ _ ⟨⟩
    exact h

/-- Fewer registers, fewer checks. -/
theorem operand2Allowed_mono {regs regs' : List Reg} {op2 : Operand2} (h : operand2Allowed regs op2 = true)
    (hsub : ∀ r ∈ regs', r ∈ regs) : operand2Allowed regs' op2 = true :=
  operand2Allowed_iff.mpr fun rs kind rm e =>
    have ⟨hrs, hrm, hregs⟩ := operand2Allowed_iff.mp h rs kind rm e
    ⟨hrs, hrm, fun r hr => hregs r (hsub r hr)⟩

/-! Each instruction as a form of the two shared meanings, its should-be-zero field zero. -/

section
variable (c : Cond) (sf : Bool) (rn rd : Reg) (op2 : Operand2) (s : State)

theorem exec_armAnd : exec (.armAnd c sf rn rd op2) s =
    dataOp c sf true [rn, rd] rd op2 s fun b => logical s (armReg s rn &&& b.value) b := rfl

theorem exec_armEor : exec (.armEor c sf rn rd op2) s =
    dataOp c sf true [rn, rd] rd op2 s fun b => logical s (armReg s rn ^^^ b.value) b := rfl

theorem exec_armSub : exec (.armSub c sf rn rd op2) s =
    dataOp c sf true [rn, rd] rd op2 s fun b => arithmetic s (addWithCarry (armReg s rn) (~~~b.value) true) := rfl

theorem exec_armRsb : exec (.armRsb c sf rn rd op2) s =
    dataOp c sf true [rn, rd] rd op2 s fun b => arithmetic s (addWithCarry b.value (~~~armReg s rn) true) := rfl

theorem exec_armAdd : exec (.armAdd c sf rn rd op2) s =
    dataOp c sf true [rn, rd] rd op2 s fun b => arithmetic s (addWithCarry (armReg s rn) b.value false) := rfl

theorem exec_armAdc : exec (.armAdc c sf rn rd op2) s =
    dataOp c sf true [rn, rd] rd op2 s fun b => arithmetic s (addWithCarry (armReg s rn) b.value (psrC s.cpsr)) :=
  rfl

theorem exec_armSbc : exec (.armSbc c sf rn rd op2) s =
    dataOp c sf true [rn, rd] rd op2 s fun b => arithmetic s (addWithCarry (armReg s rn) (~~~b.value) (psrC s.cpsr)) :=
  rfl

theorem exec_armRsc : exec (.armRsc c sf rn rd op2) s =
    dataOp c sf true [rn, rd] rd op2 s fun b => arithmetic s (addWithCarry b.value (~~~armReg s rn) (psrC s.cpsr)) :=
  rfl

theorem exec_armOrr : exec (.armOrr c sf rn rd op2) s =
    dataOp c sf true [rn, rd] rd op2 s fun b => logical s (armReg s rn ||| b.value) b := rfl

theorem exec_armMov : exec (.armMov c sf 0 rd op2) s =
    dataOp c sf true [rd] rd op2 s fun b => logical s b.value b := rfl

theorem exec_armBic : exec (.armBic c sf rn rd op2) s =
    dataOp c sf true [rn, rd] rd op2 s fun b => logical s (armReg s rn &&& ~~~b.value) b := rfl

theorem exec_armMvn : exec (.armMvn c sf 0 rd op2) s =
    dataOp c sf true [rd] rd op2 s fun b => logical s (~~~b.value) b := rfl

theorem exec_armTst : exec (.armTst c rn 0 op2) s =
    compareOp c true rn op2 s fun b => (logical s (armReg s rn &&& b.value) b).2 := rfl

theorem exec_armTeq : exec (.armTeq c rn 0 op2) s =
    compareOp c true rn op2 s fun b => (logical s (armReg s rn ^^^ b.value) b).2 := rfl

theorem exec_armCmp : exec (.armCmp c rn 0 op2) s =
    compareOp c true rn op2 s fun b => (arithmetic s (addWithCarry (armReg s rn) (~~~b.value) true)).2 := rfl

theorem exec_armCmn : exec (.armCmn c rn 0 op2) s =
    compareOp c true rn op2 s fun b => (arithmetic s (addWithCarry (armReg s rn) b.value false)).2 := rfl

end

section
variable {c : Cond} {sf : Bool} {regs : List Reg} {rd rn : Reg} {op2 : Operand2} {s : State}

theorem dataOp_of_allowed (hc : condPassed c s.cpsr = true) (h : operand2Allowed regs op2 = true)
    (f : Shifted → Word × Word) :
    dataOp c sf true regs rd op2 s f = finishDataOp sf rd (f (operand2 s op2)).1 (f (operand2 s op2)).2 s := by
  rw [dataOp, whenPassed_of_passed hc, h]
  rfl

theorem compareOp_of_allowed (hc : condPassed c s.cpsr = true) (h : operand2Allowed [rn] op2 = true)
    (f : Shifted → Word) : compareOp c true rn op2 s f = .next (advance 4 (setCpsr (f (operand2 s op2)) s)) := by
  rw [compareOp, whenPassed_of_passed hc, h]
  rfl

/-- A data-processing instruction with a destination other than r15. -/
theorem dataOp_writesReg (hc : condPassed c s.cpsr = true) (hrd : rd ≠ 15) (h : operand2Allowed regs op2 = true)
    (f : Shifted → Word × Word) :
    Completes (dataOp c sf true regs rd op2 s f)
      (WritesReg s 4 rd (f (operand2 s op2)).1 (if sf then (f (operand2 s op2)).2 else s.cpsr)) := by
  rw [dataOp_of_allowed hc h, finishDataOp, if_neg hrd]
  exact ⟨_, rfl, writesReg_setCpsr s 4 rd _ _ hrd⟩

/-- A sum or difference, by its value `v`. -/
theorem arithmeticOp_writesReg (hc : condPassed c s.cpsr = true) (hrd : rd ≠ 15) (h : operand2Allowed regs op2 = true)
    (sum : Shifted → AluResult) {v : Word} (hv : (sum (operand2 s op2)).value = v) :
    Completes (dataOp c sf true regs rd op2 s fun b => arithmetic s (sum b))
      (WritesReg s 4 rd v (if sf then setArithmetic s.cpsr (sum (operand2 s op2)) else s.cpsr)) :=
  hv ▸ dataOp_writesReg hc hrd h fun b => arithmetic s (sum b)

theorem compareOp_writesFlags (hc : condPassed c s.cpsr = true) (h : operand2Allowed [rn] op2 = true)
    (f : Shifted → Word) : Completes (compareOp c true rn op2 s f) (WritesFlags s 4 (f (operand2 s op2))) :=
  ⟨_, compareOp_of_allowed hc h f, writesFlags_setCpsr s 4 _⟩

end

/-! Results in r15 (R196; 60_exceptions.md R585). -/

section
variable {v : Word} {s : State}

theorem jumpArm_aligned (h : fld 0 2 v = 0#2) : Completes (jumpArm v s) (Branches s v s.cpsr none) :=
  ⟨_, if_pos h, branches_branchTo s v⟩

theorem jumpArm_misaligned (h : fld 0 2 v ≠ 0#2) : jumpArm v s = .refused .misalignedPc := if_neg h

/-- User and System mode have no SPSR (10_state.md R52). -/
theorem spsr_eq_none (h : mode s = modeUser ∨ mode s = modeSys) : spsr s = none := by
  rw [spsr]
  obtain h | h := h <;> rw [h] <;> rfl

theorem exceptionReturn_noSpsr (h : mode s = modeUser ∨ mode s = modeSys) :
    exceptionReturn v s = .refused .noSpsr := by
  rw [exceptionReturn, spsr_eq_none h]

theorem exceptionReturn_thumb {q : Word} (hq : spsr s = some q) (ht : psrT q = true) :
    Completes (exceptionReturn v s) (Branches s (evenAddr v) q none) := by
  rw [exceptionReturn, hq]
  exact ⟨_, if_pos ht, branches_setCpsr s (evenAddr v) q⟩

theorem exceptionReturn_arm {q : Word} (hq : spsr s = some q) (ht : psrT q = false) (hv : fld 0 2 v = 0#2) :
    Completes (exceptionReturn v s) (Branches s v q none) := by
  rw [exceptionReturn, hq]
  exact ⟨_, (if_neg (ht ▸ Bool.false_ne_true)).trans (if_pos hv), branches_setCpsr s v q⟩

theorem exceptionReturn_misaligned {q : Word} (hq : spsr s = some q) (ht : psrT q = false) (hv : fld 0 2 v ≠ 0#2) :
    exceptionReturn v s = .refused .misalignedPc := by
  rw [exceptionReturn, hq]
  exact (if_neg (ht ▸ Bool.false_ne_true)).trans (if_neg hv)

/-- What a result in r15 does: a jump, or with S an exception return. -/
def pcResult (sf : Bool) (v : Word) (s : State) : Result := if sf then exceptionReturn v s else jumpArm v s

theorem dataOp_pcResult {c : Cond} {sf : Bool} {regs : List Reg} {op2 : Operand2} (hc : condPassed c s.cpsr = true)
    (h : operand2Allowed regs op2 = true) (f : Shifted → Word × Word) (hv : (f (operand2 s op2)).1 = v) :
    dataOp c sf true regs 15 op2 s f = pcResult sf v s := by
  rw [dataOp_of_allowed hc h, hv]
  rfl

end

/-! CLZ (R213). -/

theorem clz_zero : (0 : Word).clz = 32 := BitVec.clz_eq_iff_eq_zero.mpr rfl

/-- The leading zeros are the bits above the most significant 1. -/
theorem clz_eq_of_top_bit {x : Word} {k : Nat} (hk : k < 32) (hset : flag k x = true)
    (habove : ∀ j, k < j → flag j x = false) : x.clz = BitVec.ofNat 32 (31 - k) := by
  have nonzero : x ≠ 0#32 := by
    rintro rfl
    simp [flag] at hset
  have few : x.clz.toNat < 32 := BitVec.clz_lt_iff_ne_zero.mpr nonzero
  have top : flag (31 - x.clz.toNat) x = true := BitVec.getLsbD_true_clz_of_ne_zero (by decide) nonzero
  have not_above : ¬ k < 31 - x.clz.toNat := fun h => by simp [habove _ h] at top
  have below : x.toNat < 2 ^ (32 - x.clz.toNat) := BitVec.toNat_lt_two_pow_sub_clz
  have reached : 2 ^ k ≤ x.toNat := Nat.ge_two_pow_of_testBit hset
  have inside : k < 32 - x.clz.toNat := (Nat.pow_lt_pow_iff_right (by decide)).mp (reached.trans_lt below)
  apply BitVec.eq_of_toNat_eq
  rw [BitVec.toNat_ofNat]
  omega

theorem execClz_writesReg {c : Cond} {rd rm : Reg} {s : State} (hc : condPassed c s.cpsr = true) (hrd : rd ≠ 15)
    (hrm : rm ≠ 15) {v : Word} (hv : (armReg s rm).clz = v) :
    Completes (exec (.clz c 15 rd 15 rm) s) (WritesReg s 4 rd v s.cpsr) := by
  have registers : anyPc [rd, rm] = false := by simpa [anyPc] using And.intro hrd hrm
  subst hv
  refine ⟨_, (whenPassed_of_passed hc _).trans ?_, writesReg_setReg s 4 rd _ hrd⟩
  rw [registers]
  rfl

end Sys2Proof.Machine

section
open Sys2Proof Sys2Proof.Machine

/-- Settles O15: the six are one shared meaning, `dataOp_writesReg`. -/
theorem logicalInstructionsWriteResultAndFlags : Obligations.LogicalInstructionsWriteResultAndFlags := by
  refine ⟨fun _ _ => operand2Allowed_iff, fun c sf rn rd op2 s hc hrd => ?_⟩
  simp only [exec_armAnd, exec_armEor, exec_armOrr, exec_armBic, exec_armMov, exec_armMvn]
  exact ⟨fun h => ⟨dataOp_writesReg hc hrd h _, dataOp_writesReg hc hrd h _, dataOp_writesReg hc hrd h _,
      dataOp_writesReg hc hrd h _⟩,
    fun h => ⟨dataOp_writesReg hc hrd h _, dataOp_writesReg hc hrd h _⟩⟩

/-- Settles O16: the same shared meaning, with the value of each sum. -/
theorem arithmeticInstructionsWriteResultAndFlags : Obligations.ArithmeticInstructionsWriteResultAndFlags := by
  intro c sf rn rd op2 s hc hrd h a b carry
  simp only [exec_armAdd, exec_armAdc, exec_armSub, exec_armSbc, exec_armRsb, exec_armRsc]
  exact ⟨arithmeticOp_writesReg hc hrd h _ (addWithCarry_add_value a b),
    arithmeticOp_writesReg hc hrd h _ (addWithCarry_value a b _),
    arithmeticOp_writesReg hc hrd h _ (addWithCarry_sub_value a b),
    arithmeticOp_writesReg hc hrd h _ (addWithCarry_not_value a b _),
    arithmeticOp_writesReg hc hrd h _ (addWithCarry_sub_value b a),
    arithmeticOp_writesReg hc hrd h _ (addWithCarry_not_value b a _)⟩

/-- Settles O17: the four are one shared meaning, `compareOp_writesFlags`. -/
theorem compareInstructionsWriteOnlyFlags : Obligations.CompareInstructionsWriteOnlyFlags := by
  intro c rn op2 s hc h
  simp only [exec_armTst, exec_armTeq, exec_armCmp, exec_armCmn]
  exact ⟨compareOp_writesFlags hc h _, compareOp_writesFlags hc h _, compareOp_writesFlags hc h _,
    compareOp_writesFlags hc h _⟩

/-- Settles O18: the twelve end in `pcResult`, a jump or an exception return. -/
theorem dataProcessingWritesToThePc : Obligations.DataProcessingWritesToThePc := by
  intro c sf rn op2 s hc hop a b carry p hp
  have result : p.1 = pcResult sf p.2 s := by
    have hop' : operand2Allowed [15] op2 = true := operand2Allowed_mono hop (by simp)
    revert p
    simp only [List.forall_mem_cons, List.not_mem_nil, false_implies, implies_true, and_true, exec_armAnd, exec_armEor,
      exec_armSub, exec_armRsb, exec_armAdd, exec_armAdc, exec_armSbc, exec_armRsc, exec_armOrr, exec_armMov,
      exec_armBic, exec_armMvn]
    exact ⟨dataOp_pcResult hc hop _ rfl, dataOp_pcResult hc hop _ rfl,
      dataOp_pcResult hc hop _ (addWithCarry_sub_value a b), dataOp_pcResult hc hop _ (addWithCarry_sub_value b a),
      dataOp_pcResult hc hop _ (addWithCarry_add_value a b), dataOp_pcResult hc hop _ (addWithCarry_value a b _),
      dataOp_pcResult hc hop _ (addWithCarry_not_value a b _), dataOp_pcResult hc hop _ (addWithCarry_not_value b a _),
      dataOp_pcResult hc hop _ rfl, dataOp_pcResult hc hop' _ rfl, dataOp_pcResult hc hop _ rfl,
      dataOp_pcResult hc hop' _ rfl⟩
  rw [result]
  cases sf with
  | false => exact ⟨fun _ => jumpArm_aligned, fun _ => jumpArm_misaligned, nofun, nofun, nofun, nofun⟩
  | true =>
    exact ⟨nofun, nofun, fun _ _ hq ht => exceptionReturn_thumb hq ht, fun _ _ hq ht hv => exceptionReturn_arm hq ht hv,
      fun _ _ hq ht hv => exceptionReturn_misaligned hq ht hv, fun _ h => exceptionReturn_noSpsr h⟩

/-- Settles O21: the check of r15, and the leading zeros by the most significant 1. -/
theorem clzCountsLeadingZeros : Obligations.ClzCountsLeadingZeros := by
  refine fun c rd rm s hc => ⟨fun h => ?_, fun hrd hrm => ⟨fun h0 => ?_, fun k hk hset habove => ?_⟩⟩
  · exact refused_second hc (by simp) (anyPc_iff.mpr (by rcases h with rfl | rfl <;> simp))
  · exact execClz_writesReg hc hrd hrm (by rw [h0, clz_zero])
  · exact execClz_writesReg hc hrd hrm (clz_eq_of_top_bit hk hset habove)

end

/-! Multiplies and saturating sums (41_arm_multiply_dsp.md R231 to R249): when the shared meaning lets a form through,
the endings of the multiplies, and the model's integers as the words, clamps and tests that the rules name. -/

namespace Sys2Proof.Machine

section
variable {c : Cond} {s : State}

/-- R231: no register is r15 and no forbidden pair is equal. -/
theorem multiplyOp_completes (hc : condPassed c s.cpsr = true) {ok clash : Bool} {regs : List Reg} {u : State}
    {P : State → Prop} (hok : ok = true) (hregs : ∀ r ∈ regs, r ≠ 15) (hclash : clash = false) (h : P (advance 4 u)) :
    Completes (multiplyOp c ok regs clash s u) P := by
  have noPc : anyPc regs = false := by
    rw [Bool.eq_false_iff, ne_eq, anyPc_iff]
    exact fun h15 => hregs 15 h15 rfl
  refine ⟨_, ?_, h⟩
  rw [multiplyOp, whenPassed_of_passed hc, hok, noPc, hclash]
  rfl

theorem longClash_eq_false {rdHi rdLo rm : Reg} (hpair : rdHi ≠ rdLo) (hhi : rdHi ≠ rm) (hlo : rdLo ≠ rm) :
    longClash rdHi rdLo rm = false := by simp [longClash, hpair, hhi, hlo]

/-! The endings. -/

theorem writesReg_finishMul {rd : Reg} (hrd : rd ≠ 15) (sf : Bool) (v : Word) :
    WritesReg s 4 rd v (if sf then setResultNZ s.cpsr v else s.cpsr) (advance 4 (finishMul sf rd v s)) :=
  writesReg_setCpsr s 4 rd v _ hrd

theorem writesPair_finishMulLong {rdHi rdLo : Reg} (hhi : rdHi ≠ 15) (hlo : rdLo ≠ 15) (hpair : rdHi ≠ rdLo) (sf : Bool)
    {v w : BitVec 64} (hv : v = w) :
    WritesPair s 4 rdHi rdLo (fld 32 32 w) (fld 0 32 w) (if sf then setNZ s.cpsr w.msb (w == 0) else s.cpsr)
      (advance 4 (finishMulLong sf rdHi rdLo v s)) :=
  hv ▸ writesPair_setCpsr s 4 rdHi rdLo v _ hhi hlo hpair

/-- Saturation clamps (00_scope.md R13). -/
theorem sat_eq_clamp (x : Int) : sat x = max (-(2 ^ 31)) (min x (2 ^ 31 - 1)) := by
  unfold sat
  split
  · omega
  · split <;> omega

/-- An integer saturates where the clamp changes it. -/
theorem doesSat_iff_clamp_ne {x : Int} : doesSat x = true ↔ max (-(2 ^ 31)) (min x (2 ^ 31 - 1)) ≠ x := by
  rw [doesSat, decide_eq_true_iff]
  omega

/-- An integer saturates where a signed word does not hold it. -/
theorem doesSat_iff_wraps {x : Int} : doesSat x = true ↔ (BitVec.ofInt 32 x).toInt ≠ x := by
  rw [doesSat, decide_eq_true_iff, BitVec.toInt_ofInt, bmod_ne_iff]

theorem stickyQ_eq_ite {p : Word} {o : Bool} {q : Prop} [Decidable q] (h : o = true ↔ q) :
    stickyQ p o = if q then setBit p 27 true else p := by
  unfold stickyQ
  exact if_congr h rfl rfl

theorem writesReg_finishSat {rd : Reg} (hrd : rd ≠ 15) {x v : Int} (hv : x = v) {earlier : Bool} {q : Prop} [Decidable q]
    (hq : earlier = true ↔ q) :
    WritesReg s 4 rd (BitVec.ofInt 32 (max (-(2 ^ 31)) (min v (2 ^ 31 - 1))))
      (if q ∨ max (-(2 ^ 31)) (min v (2 ^ 31 - 1)) ≠ v then setBit s.cpsr 27 true else s.cpsr)
      (advance 4 (finishSat rd x earlier s)) := by
  subst hv
  refine (writesReg_setCpsr s 4 rd _ _ hrd).congr (by rw [sat_eq_clamp]) (stickyQ_eq_ite ?_)
  rw [Bool.or_eq_true, hq, doesSat_iff_clamp_ne]

theorem writesReg_finishAcc {rd : Reg} (hrd : rd ≠ 15) {x v : Int} (hv : x = v) :
    WritesReg s 4 rd (BitVec.ofInt 32 v)
      (if (BitVec.ofInt 32 v).toInt ≠ v then setBit s.cpsr 27 true else s.cpsr) (advance 4 (finishAcc rd x s)) :=
  hv ▸ (writesReg_setCpsr s 4 rd _ _ hrd).congr rfl (stickyQ_eq_ite doesSat_iff_wraps)

end

/-! The products, as the integers and 64-bit words of the rules. -/

section
variable (s : State) (rm rs : Reg)

theorem halfInt_eq_fld (v : Word) (top : Bool) : halfInt v top = (fld (if top then 16 else 0) 16 v).toInt := by
  cases top <;> rfl

/-- The zero-extended words multiplied modulo 2^64 give the whole product. -/
theorem uProduct_eq_mul : uProduct s rm rs = (armReg s rm).setWidth 64 * (armReg s rs).setWidth 64 := by
  rw [uProduct, BitVec.ofNat_mul, BitVec.ofNat_toNat, BitVec.ofNat_toNat]

/-- The sign-extended words multiplied modulo 2^64. -/
theorem sProduct_eq_mul : sProduct s rm rs = (armReg s rm).signExtend 64 * (armReg s rs).signExtend 64 :=
  BitVec.ofInt_mul _ _

theorem halfProduct_eq (x y : Bool) : halfProduct s rm rs x y =
    (fld (if x then 16 else 0) 16 (armReg s rm)).toInt * (fld (if y then 16 else 0) 16 (armReg s rs)).toInt := by
  rw [halfProduct, halfInt_eq_fld, halfInt_eq_fld]

/-- The sign-extended halves multiplied modulo 2^64. -/
theorem ofInt_halfProduct (x y : Bool) : BitVec.ofInt 64 (halfProduct s rm rs x y) =
    (fld (if x then 16 else 0) 16 (armReg s rm)).signExtend 64 *
      (fld (if y then 16 else 0) 16 (armReg s rs)).signExtend 64 := by
  rw [halfProduct_eq]
  exact BitVec.ofInt_mul _ _

theorem wideProduct_eq (y : Bool) : wideProduct s rm rs y =
    (armReg s rm).toInt * (fld (if y then 16 else 0) 16 (armReg s rs)).toInt / 2 ^ 16 := by
  rw [wideProduct, halfInt_eq_fld]
  rfl

end

end Sys2Proof.Machine

section
open Sys2Proof Sys2Proof.Machine

/-- Settles O22: the checks of R231 pass (`multiplyOp_completes`), and the endings write the products as they stand. -/
theorem multipliesWriteTheProduct : Obligations.MultipliesWriteTheProduct := by
  intro c sf rd rn rs rm s hc hrd hrn hrs hrm hne m v flags flags64
  have noPc : ∀ r ∈ [rd, rs, rm], r ≠ 15 := by simpa using ⟨hrd, hrs, hrm⟩
  have noPcFour : ∀ r ∈ [rd, rn, rs, rm], r ≠ 15 := by simpa using ⟨hrd, hrn, hrs, hrm⟩
  refine ⟨?_, ?_, fun hpair hlo => ?_⟩
  · exact multiplyOp_completes hc rfl noPc (by simp [hne]) (writesReg_finishMul hrd sf _)
  · exact multiplyOp_completes hc rfl noPcFour (by simp [hne]) (writesReg_finishMul hrd sf _)
  · have allowed := longClash_eq_false hpair.symm hne hlo
    exact ⟨multiplyOp_completes hc rfl noPcFour allowed (writesPair_finishMulLong hrd hrn hpair.symm sf rfl),
      multiplyOp_completes hc rfl noPcFour allowed (writesPair_finishMulLong hrd hrn hpair.symm sf rfl)⟩

/-- Settles O23: the products modulo 2^64 are those of the extended words (`uProduct_eq_mul`, `sProduct_eq_mul`) and halves
(`ofInt_halfProduct`). -/
theorem longMultipliesAccumulateInThePair : Obligations.LongMultipliesAccumulateInThePair := by
  intro c sf y x rdHi rdLo rs rm s hc hhi hlo hrs hrm hpair acc ends flags
  have noPc : ∀ r ∈ [rdHi, rdLo, rs, rm], r ≠ 15 := by simpa using ⟨hhi, hlo, hrs, hrm⟩
  refine ⟨fun hhim hlom => ?_, ?_⟩
  · have allowed := longClash_eq_false hpair hhim hlom
    have unsignedSum := congrArg (acc + ·) (uProduct_eq_mul s rm rs)
    have signedSum := congrArg (acc + ·) (sProduct_eq_mul s rm rs)
    exact ⟨multiplyOp_completes hc rfl noPc allowed (writesPair_finishMulLong hhi hlo hpair sf unsignedSum),
      multiplyOp_completes hc rfl noPc allowed (writesPair_finishMulLong hhi hlo hpair sf signedSum)⟩
  · rw [← ofInt_halfProduct]
    exact multiplyOp_completes hc rfl noPc (by simp [hpair]) (writesPair_setRegPair s 4 rdHi rdLo _ hhi hlo hpair)

/-- Settles O24: the four share one ending, `writesReg_finishSat`; the D forms saturate twice `Rn` first. -/
theorem saturatingInstructionsClampAndSetQ : Obligations.SaturatingInstructionsClampAndSetQ := by
  intro c rn rd rm s hc hrn hrd hrm m n clamp ends
  have noPc : ∀ r ∈ [rn, rd, rm], r ≠ 15 := by simpa using ⟨hrn, hrd, hrm⟩
  have doubled : sat (2 * n) = clamp (2 * n) := sat_eq_clamp _
  refine ⟨?_, ?_, ?_, ?_⟩
  · exact multiplyOp_completes hc rfl noPc rfl (writesReg_finishSat hrd rfl (by simp))
  · exact multiplyOp_completes hc rfl noPc rfl (writesReg_finishSat hrd rfl (by simp))
  · exact multiplyOp_completes hc rfl noPc rfl
      (writesReg_finishSat hrd (congrArg (m + ·) doubled) doesSat_iff_clamp_ne)
  · exact multiplyOp_completes hc rfl noPc rfl
      (writesReg_finishSat hrd (congrArg (m - ·) doubled) doesSat_iff_clamp_ne)

/-- Settles O25: the products by `halfProduct_eq` and `wideProduct_eq`; the sums share the ending `writesReg_finishAcc`. -/
theorem halfwordMultipliesAndTheirSums : Obligations.HalfwordMultipliesAndTheirSums := by
  intro c y x rd rn rs rm s hc hrd hrn hrs hrm half p q n sum
  have narrow : halfProduct s rm rs x y = p := halfProduct_eq s rm rs x y
  have wide : wideProduct s rm rs y = q := wideProduct_eq s rm rs y
  have noPc : ∀ r ∈ [rd, rs, rm], r ≠ 15 := by simpa using ⟨hrd, hrs, hrm⟩
  have noPcFour : ∀ r ∈ [rd, rn, rs, rm], r ≠ 15 := by simpa using ⟨hrd, hrn, hrs, hrm⟩
  refine ⟨?_, ?_, ?_, ?_⟩
  · exact multiplyOp_completes hc rfl noPc rfl
      ((writesReg_setReg s 4 rd _ hrd).congr (congrArg (BitVec.ofInt 32) narrow) rfl)
  · exact multiplyOp_completes hc rfl noPc rfl
      ((writesReg_setReg s 4 rd _ hrd).congr (congrArg (BitVec.ofInt 32) wide) rfl)
  · exact multiplyOp_completes hc rfl noPcFour rfl (writesReg_finishAcc hrd (congrArg (· + n) narrow))
  · exact multiplyOp_completes hc rfl noPcFour rfl (writesReg_finishAcc hrd (congrArg (· + n) wide))

/-- Settles O4: the decoder on each of the nine words. -/
theorem exampleWordsDecode : Obligations.ExampleWordsDecode :=
  ⟨rfl, rfl, rfl, rfl, rfl, rfl, rfl, rfl, rfl⟩

end

/-! Branches (42_arm_branch.md R270 to R274; 48_thumb_branch_load_store.md R522, R523): the target of a label, and the
exchange of state that the register forms share. -/

namespace Sys2Proof.Machine

/-- An offset in units of `2 ^ k` bytes, sign-extended and shifted, is its integer times `2 ^ k` modulo 2^32. -/
theorem sext_shiftLeft {n : Nat} (v : BitVec n) (k : Nat) : sext v <<< k = BitVec.ofInt 32 (2 ^ k * v.toInt) := by
  have unit : BitVec.twoPow 32 k = BitVec.ofInt 32 (2 ^ k) := by
    apply BitVec.eq_of_toNat_eq
    rw [BitVec.toNat_twoPow, ← BitVec.toNat_ofNat, ← BitVec.ofInt_natCast, Nat.cast_pow, Nat.cast_ofNat]
  calc sext v <<< k
      = sext v * BitVec.twoPow 32 k := BitVec.shiftLeft_eq_mul_twoPow _ _
    _ = BitVec.ofInt 32 v.toInt * BitVec.ofInt 32 (2 ^ k) := by rw [unit]; rfl
    _ = BitVec.ofInt 32 (2 ^ k * v.toInt) := by rw [← BitVec.ofInt_mul, mul_comm]

/-- R270, in integers modulo 2^32. -/
theorem armBranchTarget_eq_ofInt (s : State) (imm24 : BitVec 24) :
    armBranchTarget s imm24 = BitVec.ofInt 32 (s.pc.toInt + 8 + 4 * imm24.toInt) := by
  rw [armBranchTarget, sext_shiftLeft, BitVec.ofInt_add, BitVec.ofInt_add, BitVec.ofInt_toInt]
  rfl

section
variable {v link : Word} {s : State}

/-- A target with bits 1:0 = 10 (R272). -/
theorem branchExchange_misaligned (h : fld 0 2 v = 0b10#2) : branchExchange v s = .refused .misalignedPc := if_pos h

theorem branchExchange_branches (h : fld 0 2 v ≠ 0b10#2) :
    Completes (branchExchange v s) (Branches s (evenAddr v) (setBit s.cpsr 5 (flag 0 v)) none) :=
  ⟨_, if_neg h, branches_setCpsr s _ _⟩

/-- The exchange after the link is written: its target was read before. -/
theorem branchExchange_branches_link (h : fld 0 2 v ≠ 0b10#2) :
    Completes (branchExchange v (setReg 14 link s))
      (Branches s (evenAddr v) (setBit s.cpsr 5 (flag 0 v)) (some link)) :=
  ⟨_, if_neg h, branches_link s _ _ _⟩

end

/-! Each register form whose checks pass is the exchange. -/

section
variable {c : Cond} {rm : Reg} {s : State}

theorem anyPc_singleton (h : rm ≠ 15) : anyPc [rm] = false := by simpa [anyPc] using h

theorem exec_bx (hc : condPassed c s.cpsr = true) : exec (.bx c 0xFFF rm) s = branchExchange (armReg s rm) s :=
  whenPassed_of_passed hc _

theorem exec_tBx : exec (.tBx rm 0) s = branchExchange (thumbReg s rm) s := rfl

theorem exec_blxReg (hc : condPassed c s.cpsr = true) (h : rm ≠ 15) :
    exec (.blxReg c 0xFFF rm) s = branchExchange (armReg s rm) (setReg 14 (s.pc + 4) s) := by
  refine (whenPassed_of_passed hc _).trans ?_
  rw [anyPc_singleton h]
  rfl

theorem exec_tBlxReg (h : rm ≠ 15) :
    exec (.tBlxReg rm 0) s = branchExchange (thumbReg s rm) (setReg 14 (thumbLink s) s) := by
  change execTBlxReg rm 0 s = _
  rw [execTBlxReg, anyPc_singleton h]
  rfl

end

end Sys2Proof.Machine

section
open Sys2Proof Sys2Proof.Machine

/-- Settles O26: the target by `armBranchTarget_eq_ofInt`, the endings by the frames of a branch without a link, with one,
and with one and a new state bit. -/
theorem armBranchesToALabel : Obligations.ArmBranchesToALabel := by
  intro c h imm24 s target
  have reaches : armBranchTarget s imm24 = target := armBranchTarget_eq_ofInt s imm24
  refine ⟨fun hc => ⟨?_, ?_⟩, ?_⟩
  · exact ⟨_, whenPassed_of_passed hc _, (branches_branchTo s _).congr reaches⟩
  · exact ⟨_, whenPassed_of_passed hc _, (branches_link_keep s _ _).congr reaches⟩
  · exact ⟨_, rfl, (branches_link s _ true _).congr (congrArg (· + _) reaches)⟩

/-- Settles O27: what r15 reads holds by definition, and each form is the shared exchange of state, with a link
(`branchExchange_branches_link`) or without (`branchExchange_branches`). -/
theorem registerBranchesExchangeState : Obligations.RegisterBranchesExchangeState := by
  refine ⟨fun r s => ⟨rfl, rfl⟩, ?_⟩
  intro c rm s hc goesTo stops
  have blxRefusesPc : exec (.blxReg c 0xFFF 15) s = .refused .r15Operand := refused_second hc (by simp) rfl
  simp only [goesTo, stops, exec_bx hc, exec_tBx]
  refine ⟨branchExchange_branches, branchExchange_misaligned, branchExchange_branches, branchExchange_misaligned,
    fun hrm => ?_, blxRefusesPc, rfl⟩
  rw [exec_blxReg hc hrm, exec_tBlxReg hrm]
  exact ⟨branchExchange_branches_link, branchExchange_misaligned, branchExchange_branches_link,
    branchExchange_misaligned⟩

end

/-! Addressing modes 2 and 3 (43_arm_load_store.md R291 to R294): the offset of mode 2 by the kind of its shift, and what
the register restrictions leave. -/

namespace Sys2Proof.Machine

section
variable (k : Bool) (m : Word) (amount : BitVec 5)

theorem shiftByImm_lsl_value : (shiftByImm k .lsl m amount).value = m <<< amount.toNat := by
  by_cases h : amount = 0
  · simp [shiftByImm, h]
  · simp only [shiftByImm, toNat_eq_zero_iff, if_neg h]

theorem shiftByImm_lsr_value :
    (shiftByImm k .lsr m amount).value = if amount = 0 then 0 else m >>> amount.toNat := by
  simp only [shiftByImm, toNat_eq_zero_iff, apply_ite Shifted.value]

/-- An arithmetic shift by 31 spreads the sign over the word. -/
theorem sshiftRight_31_eq_ite : m.sshiftRight 31 = if flag 31 m then 0xFFFFFFFF else 0 := by
  refine eq_of_flag fun i hi => ?_
  rw [flag_sshiftRight_31 m hi]
  cases flag 31 m with
  | false => exact (BitVec.getLsbD_zero).symm
  | true =>
    have ones : flag i (BitVec.allOnes 32) = true := BitVec.getLsbD_allOnes.trans (decide_eq_true hi)
    exact ones.symm

theorem shiftByImm_asr_value : (shiftByImm k .asr m amount).value =
    if amount = 0 then (if flag 31 m then 0xFFFFFFFF else 0) else m.sshiftRight amount.toNat := by
  simp only [shiftByImm, toNat_eq_zero_iff, apply_ite Shifted.value, sshiftRight_31_eq_ite]

/-- RRX: C comes in above the word shifted by one. -/
theorem setBit_shiftRight_one : setBit (m >>> 1) 31 k = (if k then 0x80000000 else 0) ||| (m >>> 1) := by
  cases k with
  | true => exact BitVec.or_comm _ _
  | false =>
    refine (eq_of_flag fun i hi => ?_).trans BitVec.zero_or.symm
    rw [flag_setBit _ _ _ _ hi, flag_shiftRight]
    split
    · subst i
      exact (flag_eq_of_ge _ m (by decide)).symm
    · rfl

theorem shiftByImm_ror_value : (shiftByImm k .ror m amount).value =
    if amount = 0 then (if k then 0x80000000 else 0) ||| (m >>> 1) else m.rotateRight amount.toNat := by
  simp only [shiftByImm, toNat_eq_zero_iff, apply_ite Shifted.value, setBit_shiftRight_one]

end

section
variable {idx : Index} {rn rd : Reg} {rm : Option Reg} {pcOk : Bool}

theorem writesBase_iff : Index.writesBase idx = true ↔ idx ≠ .offset := by
  cases idx <;> simp [Index.writesBase]

theorem offset3Sbz_reg_iff (sbz : BitVec 4) (r : Reg) : offset3Sbz (.reg sbz r) = true ↔ sbz = 0 := by
  simp [offset3Sbz]

theorem base_of_allowed (h : loadStoreAllowed idx rn rd rm pcOk = true) :
    Index.writesBase idx = true → rn ≠ 15 ∧ rd ≠ rn := by
  obtain ⟨_, _, _, hbase⟩ := (loadStoreAllowed_iff idx rn rd rm pcOk).mp h
  exact fun hw => ⟨(hbase hw).1, (hbase hw).2.2⟩

theorem rd_ne_pc_of_allowed (h : loadStoreAllowed idx rn rd rm false = true) : rd ≠ 15 := by
  obtain ⟨_, _, hrd, _⟩ := (loadStoreAllowed_iff idx rn rd rm false).mp h
  exact fun e => Bool.false_ne_true (hrd e)

/-- Where r15 may be transferred every other register may be. -/
theorem loadStoreAllowed_pcOk (h : loadStoreAllowed idx rn rd rm false = true) :
    loadStoreAllowed idx rn rd rm true = true := by
  obtain ⟨hidx, hrm, _, hbase⟩ := (loadStoreAllowed_iff idx rn rd rm false).mp h
  exact (loadStoreAllowed_iff idx rn rd rm true).mpr ⟨hidx, hrm, fun _ => rfl, hbase⟩

end

end Sys2Proof.Machine

/-! The endings of single loads and stores (R295, R297): what a load or store does when its access is answered, and how it
stops when it is not. -/

namespace Sys2Proof.Machine

/-- The result `r` of an instruction that stands in `s` and shows the access `a` from `q`, a state of the instruction: an
abort enters Data Abort and changes nothing else, a monitor-mode watchpoint sets DbgAbt too and may have written `written`
or, for a store, the bytes of the access (60_exceptions.md R568 to R570, R603, R604). -/
def StopsAtAccess (s q : State) (r : Result) (a : Access) (v : Word) (written : List (ModeBits × Reg)) : Prop :=
  (dataAnswer q a v = .abort → Completes r (Enters s .dataAbort (s.pc + 8))) ∧
  (dataAnswer q a v = .debugAbort → Completes r fun t =>
    AbortsData s written (setDbgAbt true s).dbg s.cops t ∧ (a.write = false → MemKept s t) ∧
      MemKeptOutside s t a.size a.addr)

theorem Completes.mono {r : Result} {P Q : State → Prop} (h : Completes r P) (hpq : ∀ t, P t → Q t) : Completes r Q := by
  obtain ⟨t, e, ht⟩ := h
  exact ⟨t, e, hpq t ht⟩

/-- Only the CHAINOUT latch tells the state after an answered access from the one before. -/
theorem StopsAtAccess.of_latched {s q : State} {acc : Access} {x : Word} (hf : acc.fetch = false) {r : Result}
    {a : Access} {v : Word} {written : List (ModeBits × Reg)} (h : StopsAtAccess (latched acc x s) q r a v written) :
    StopsAtAccess s q r a v written := by
  have hk := latchKept_latched acc hf x s
  obtain ⟨abort, watched⟩ := h
  exact ⟨fun ha => (abort ha).mono fun _ ht => ht.of_access rfl hk,
    fun ha => (watched ha).mono fun _ ⟨ht, hm, ho⟩ => ⟨ht.of_access rfl hk, hm, ho⟩⟩

section
variable {s : State} {len : Word} {a : Access} {rd : Reg} {v : Word} {idx : Index} {u : Bool} {rn : Reg} {o : Word}
  {base : State → State}

/-- The end of a store that the memory system ignores. -/
theorem ignoresStore_single (s : State) (len : Word) (idx : Index) (u : Bool) (rn : Reg) (o : Word)
    (hb : Index.writesBase idx = true → rn ≠ 15) :
    IgnoresStore s len rn (Index.newBase idx (armReg s rn) o u) (advance len (singleBase s idx u rn o s)) := by
  rcases singleBase_cases s idx u rn o s with ⟨_, e1, e2⟩ | ⟨hw, b, e1, e2⟩ <;> rw [e1, e2]
  · have h := writesFlags_advance s len
    exact ⟨by simp, h.regs, h.cpsr, h.pc, h.specials, h.memory⟩
  · have h := writesReg_setReg s len rn b (hb hw)
    exact ⟨by rintro _ ⟨⟩; exact h.result, h.others, h.cpsr, h.pc, h.specials, h.memory⟩

theorem IgnoresStore.of_latched {t : State} {x : Word} (ha : a.fetch = false) {base : Option Word}
    (h : IgnoresStore (latched a x s) len rn base t) : IgnoresStore s len rn base t :=
  ⟨h.written, h.others, h.cpsr, h.pc, h.specials.of_latched ha, h.memory⟩

theorem loadTo_loads (ha : a.fetch = false) (hrd : rd ≠ 15) (hb : Index.writesBase idx = true → rn ≠ 15 ∧ rd ≠ rn)
    (hok : dataAnswer s a 0 = .ok) :
    Completes (loadTo len a rd v (singleBase s idx u rn o) s)
      (Loads s len rd v rn (Index.newBase idx (armReg s rn) o u)) :=
  ⟨_, guarded_ok hok _ _, (loads_single (latched a 0 s) len rd v idx u rn o hrd hb).of_latched ha⟩

theorem storeFrom_stores (ha : a.fetch = false) (hwf : Memory.wf s.mem = true)
    (hb : Index.writesBase idx = true → rn ≠ 15) (hok : dataAnswer s a v = .ok) :
    Completes (storeFrom len a v (singleBase s idx u rn o) s)
      (Stores s len a.size a.addr v rn (Index.newBase idx (armReg s rn) o u)) := by
  refine ⟨_, guarded_ok hok _ _, ?_⟩
  rw [perform_ok hok]
  exact (stores_single (latched a v s) len a.size a.addr v idx u rn o hwf hb).of_latched ha

theorem storeFrom_ignoresStore (ha : a.fetch = false) (hb : Index.writesBase idx = true → rn ≠ 15)
    (hi : dataAnswer s a v = .ignored) :
    Completes (storeFrom len a v (singleBase s idx u rn o) s)
      (IgnoresStore s len rn (Index.newBase idx (armReg s rn) o u)) := by
  refine ⟨_, guarded_ignored hi _ _, ?_⟩
  rw [perform_ignored hi]
  exact (ignoresStore_single (latched a v s) len idx u rn o hb).of_latched ha

theorem loadTo_stops (ha : a.fetch = false) : StopsAtAccess s s (loadTo len a rd v base s) a 0 [(mode s, rd)] :=
  guarded_load_stopped ha rd v _

theorem storeFrom_stops (ha : a.fetch = false) (hw : a.write = true) :
    StopsAtAccess s s (storeFrom len a v base s) a v [] :=
  guarded_store_stopped ha hw v _

end

end Sys2Proof.Machine

/-! The ARM loads and stores (43_arm_load_store.md R300 to R306, R320 to R324) once their checks pass: one form for all
loads and one for all stores of addressing modes 2 and 3. -/

namespace Sys2Proof.Machine

/-- A load whose form R294 allows; `value` is what it loads, by the address. -/
def armLoad (s : State) (forced : Bool) (z : Size) (idx : Index) (u : Bool) (rn rd : Reg) (o : Word)
    (value : Word → Word) : Result :=
  let addr := singleAddr s idx u rn o
  loadTo 4 (dataAccess s forced z false false addr) rd (value addr) (singleBase s idx u rn o) s

/-- A store of `v` whose form R294 allows. -/
def armStore (s : State) (forced : Bool) (z : Size) (idx : Index) (u : Bool) (rn : Reg) (o v : Word) : Result :=
  storeFrom 4 (dataAccess s forced z true false (singleAddr s idx u rn o)) v (singleBase s idx u rn o) s

section
variable {c : Cond} {s : State} {u : Bool} {idx : Index} {rn rd : Reg}

/-- A check that lets the form through. -/
theorem whenPassed_allowed (hc : condPassed c s.cpsr = true) {p : Bool} (hp : p = true) {e : Refusal} (r : Result) :
    whenPassed c s (if !p then .refused e else r) = r := by
  rw [whenPassed_of_passed hc, hp]
  rfl

section
variable {off : Offset2}

theorem exec_ldr (hc : condPassed c s.cpsr = true) (h : loadStoreAllowed idx rn rd (offset2Reg off) false = true) :
    exec (.ldr c u idx rn rd off) s = armLoad s false .word idx u rn rd (offset2 s off) (loadedWord s) :=
  (whenPassed_allowed hc (loadStoreAllowed_pcOk h) _).trans (if_neg (rd_ne_pc_of_allowed h))

theorem exec_ldrb (hc : condPassed c s.cpsr = true) (h : loadStoreAllowed idx rn rd (offset2Reg off) false = true) :
    exec (.ldrb c u idx rn rd off) s = armLoad s false .byte idx u rn rd (offset2 s off) (readMem s .byte) :=
  whenPassed_allowed hc h _

theorem exec_ldrt (hc : condPassed c s.cpsr = true)
    (h : loadStoreAllowed .postIndexed rn rd (offset2Reg off) false = true) :
    exec (.ldrt c u rn rd off) s = armLoad s true .word .postIndexed u rn rd (offset2 s off) (loadedWord s) :=
  whenPassed_allowed hc h _

theorem exec_ldrbt (hc : condPassed c s.cpsr = true)
    (h : loadStoreAllowed .postIndexed rn rd (offset2Reg off) false = true) :
    exec (.ldrbt c u rn rd off) s = armLoad s true .byte .postIndexed u rn rd (offset2 s off) (readMem s .byte) :=
  whenPassed_allowed hc h _

theorem exec_str (hc : condPassed c s.cpsr = true) (h : loadStoreAllowed idx rn rd (offset2Reg off) true = true) :
    exec (.str c u idx rn rd off) s = armStore s false .word idx u rn (offset2 s off) (storeReg s rd) :=
  whenPassed_allowed hc h _

theorem exec_strb (hc : condPassed c s.cpsr = true) (h : loadStoreAllowed idx rn rd (offset2Reg off) false = true) :
    exec (.strb c u idx rn rd off) s = armStore s false .byte idx u rn (offset2 s off) (armReg s rd) :=
  whenPassed_allowed hc h _

theorem exec_strt (hc : condPassed c s.cpsr = true)
    (h : loadStoreAllowed .postIndexed rn rd (offset2Reg off) false = true) :
    exec (.strt c u rn rd off) s = armStore s true .word .postIndexed u rn (offset2 s off) (armReg s rd) :=
  whenPassed_allowed hc h _

theorem exec_strbt (hc : condPassed c s.cpsr = true)
    (h : loadStoreAllowed .postIndexed rn rd (offset2Reg off) false = true) :
    exec (.strbt c u rn rd off) s = armStore s true .byte .postIndexed u rn (offset2 s off) (armReg s rd) :=
  whenPassed_allowed hc h _

/-- LDR to r15 (R300). -/
theorem exec_ldr_pc (hc : condPassed c s.cpsr = true) (h : loadStoreAllowed idx rn 15 (offset2Reg off) true = true) :
    exec (.ldr c u idx rn 15 off) s =
      if fld 0 2 (singleAddr s idx u rn (offset2 s off)) = 0#2 then
        guarded s (dataAccess s false .word false false (singleAddr s idx u rn (offset2 s off))) 0 id fun t =>
          loadPc (readMem s .word (singleAddr s idx u rn (offset2 s off))) (singleBase s idx u rn (offset2 s off) t)
      else .refused .misalignedPc :=
  whenPassed_allowed hc h _

end

section
variable {off : Offset3} {aligned : Bool}

theorem mode3_passed (hc : condPassed c s.cpsr = true) (hz : offset3Sbz off = true)
    (h : loadStoreAllowed idx rn rd (offset3Reg off) false = true) (ha : aligned = true) (r : Result) :
    mode3 c idx rn rd off aligned s r = r := by
  rw [mode3, whenPassed_allowed hc hz, h, ha]
  rfl

/-- The address is tested last (20_memory.md R99). -/
theorem mode3_unaligned (hc : condPassed c s.cpsr = true) (hz : offset3Sbz off = true)
    (h : loadStoreAllowed idx rn rd (offset3Reg off) false = true) (ha : aligned = false) {r : Result} :
    mode3 c idx rn rd off aligned s r = .refused .unalignedAccess := by
  rw [mode3, whenPassed_allowed hc hz, h, ha]
  rfl

theorem halfAligned_eq_true {a : Word} (h : flag 0 a = false) : halfAligned a = true := congrArg not h

theorem halfAligned_eq_false {a : Word} (h : flag 0 a = true) : halfAligned a = false := congrArg not h

theorem exec_ldrsb (hc : condPassed c s.cpsr = true) (hz : offset3Sbz off = true)
    (h : loadStoreAllowed idx rn rd (offset3Reg off) false = true) :
    exec (.ldrsb c u idx rn rd off) s =
      armLoad s false .byte idx u rn rd (offset3 s off) fun a => sext (fld 0 8 (readMem s .byte a)) :=
  mode3_passed hc hz h rfl _

theorem exec_ldrh (hc : condPassed c s.cpsr = true) (hz : offset3Sbz off = true)
    (h : loadStoreAllowed idx rn rd (offset3Reg off) false = true)
    (ha : flag 0 (singleAddr s idx u rn (offset3 s off)) = false) :
    exec (.ldrh c u idx rn rd off) s = armLoad s false .half idx u rn rd (offset3 s off) (readMem s .half) :=
  mode3_passed hc hz h (halfAligned_eq_true ha) _

theorem exec_ldrsh (hc : condPassed c s.cpsr = true) (hz : offset3Sbz off = true)
    (h : loadStoreAllowed idx rn rd (offset3Reg off) false = true)
    (ha : flag 0 (singleAddr s idx u rn (offset3 s off)) = false) :
    exec (.ldrsh c u idx rn rd off) s =
      armLoad s false .half idx u rn rd (offset3 s off) fun a => sext (fld 0 16 (readMem s .half a)) :=
  mode3_passed hc hz h (halfAligned_eq_true ha) _

theorem exec_strh (hc : condPassed c s.cpsr = true) (hz : offset3Sbz off = true)
    (h : loadStoreAllowed idx rn rd (offset3Reg off) false = true)
    (ha : flag 0 (singleAddr s idx u rn (offset3 s off)) = false) :
    exec (.strh c u idx rn rd off) s = armStore s false .half idx u rn (offset3 s off) (armReg s rd) :=
  mode3_passed hc hz h (halfAligned_eq_true ha) _

end

section
variable {forced : Bool} {z : Size} {o v : Word} {value : Word → Word} {rm : Option Reg} {pcOk : Bool}

theorem armLoad_loads (h : loadStoreAllowed idx rn rd rm false = true) (hv : value (singleAddr s idx u rn o) = v)
    (hok : dataAnswer s (dataAccess s forced z false false (singleAddr s idx u rn o)) 0 = .ok) :
    Completes (armLoad s forced z idx u rn rd o value) (Loads s 4 rd v rn (Index.newBase idx (armReg s rn) o u)) := by
  subst hv
  exact loadTo_loads rfl (rd_ne_pc_of_allowed h) (base_of_allowed h) hok

theorem armStore_stores (h : loadStoreAllowed idx rn rd rm pcOk = true) (hwf : Memory.wf s.mem = true)
    (hok : dataAnswer s (dataAccess s forced z true false (singleAddr s idx u rn o)) v = .ok) :
    Completes (armStore s forced z idx u rn o v)
      (Stores s 4 z (singleAddr s idx u rn o) v rn (Index.newBase idx (armReg s rn) o u)) :=
  storeFrom_stores rfl hwf (fun hw => (base_of_allowed h hw).1) hok

theorem armStore_ignoresStore (h : loadStoreAllowed idx rn rd rm pcOk = true)
    (hi : dataAnswer s (dataAccess s forced z true false (singleAddr s idx u rn o)) v = .ignored) :
    Completes (armStore s forced z idx u rn o v) (IgnoresStore s 4 rn (Index.newBase idx (armReg s rn) o u)) :=
  storeFrom_ignoresStore rfl (fun hw => (base_of_allowed h hw).1) hi

theorem armLoad_stops : StopsAtAccess s s (armLoad s forced z idx u rn rd o value)
    (dataAccess s forced z false false (singleAddr s idx u rn o)) 0 [(mode s, rd)] :=
  loadTo_stops rfl

theorem armStore_stops : StopsAtAccess s s (armStore s forced z idx u rn o v)
    (dataAccess s forced z true false (singleAddr s idx u rn o)) v [] :=
  storeFrom_stops rfl rfl

end

theorem toNat_zext {n : Nat} (v : BitVec n) (hn : n ≤ 32) : (zext v).toNat = v.toNat :=
  BitVec.toNat_setWidth_of_le hn

theorem fld_zext {n : Nat} (v : BitVec n) (hn : n ≤ 32) : fld 0 n (zext v) = v := by
  refine eq_of_flag fun i hi => ?_
  rw [flag_fld, decide_eq_true hi, Bool.true_and, Nat.zero_add]
  simp [flag, zext, hi.trans_le hn]

/-- A byte read as a word has the byte in its low bits. -/
theorem fld_readMem_byte (s : State) (a : Word) : fld 0 8 (readMem s .byte a) = memGet s.mem a.toNat := by
  rw [readMem_byte, fld_zext _ (by decide)]

/-! A load to the PC (R300). -/

section
variable {v o : Word}

theorem singleBase_cpsr (s : State) (idx : Index) (u : Bool) (rn : Reg) (o : Word) (t : State) :
    (singleBase s idx u rn o t).cpsr = t.cpsr := by
  obtain ⟨_, e⟩ := writesRegsOnly_singleBase s idx u rn o t
  rw [e]

theorem singleBase_pins (s : State) (idx : Index) (u : Bool) (rn : Reg) (o : Word) (t : State) :
    (singleBase s idx u rn o t).pins = t.pins := by
  obtain ⟨_, e⟩ := writesRegsOnly_singleBase s idx u rn o t
  rw [e]

theorem loadPc_disLTBit (h : s.pins.disLTBit = true) : loadPc v s = .refused .disLTBitHigh := if_pos h

theorem loadPc_exchange (h : s.pins.disLTBit = false) : loadPc v s = branchExchange v s := if_neg (by simp [h])

theorem setT_eq_setCpsr (b : Bool) (s : State) : setT b s = setCpsr (setBit s.cpsr 5 b) s := rfl

/-- The exchange of state after the base is written back. -/
theorem branchExchange_loadsPc (hv : fld 0 2 v ≠ 0b10#2) (hb : Index.writesBase idx = true → rn ≠ 15) :
    Completes (branchExchange v (singleBase s idx u rn o s))
      (LoadsPc s (evenAddr v) (setBit s.cpsr 5 (flag 0 v)) rn (Index.newBase idx (armReg s rn) o u)) := by
  refine ⟨_, if_neg hv, ?_⟩
  rw [setT_eq_setCpsr, singleBase_cpsr]
  exact loadsPc_single s _ _ idx u rn o hb

end

end

/-! PLD. -/

/-- PLD has no effect but the PC, where its form is an addressing mode (R330; log entry 44). -/
theorem execPld_advances {i : Bool} {addrMode : BitVec 12}
    (h : i = true → flag 4 addrMode = false ∧ fld 0 4 addrMode ≠ 15#4) (u : Bool) (rn : Reg) (s : State) :
    execPld i u rn addrMode s = .next (advance 4 s) := by
  cases i with
  | false => rfl
  | true =>
    obtain ⟨h4, h15⟩ := h rfl
    exact (if_neg (by simp [h4])).trans (if_neg (by simp [h15]))

end Sys2Proof.Machine

section
open Sys2Proof Sys2Proof.Machine

/-- Settles O28: what the addressing modes compute, clause by clause (`loadStoreAllowed_iff` for the registers), then the
four loads as one form, `armLoad_loads`. -/
theorem wordAndByteLoads : Obligations.WordAndByteLoads := by
  refine ⟨fun s idx u rn rd rm rm? pcOk kind amount imm12 imm8 sbz o => ?_, fun c u idx rn rd off s hc => ?_⟩
  · intro reg m moved
    refine ⟨rfl, toNat_zext _ (by decide), toNat_zext _ (by decide), rfl, ?_, rfl, rfl, rfl, rfl, rfl,
      offset3Sbz_reg_iff sbz rm, ?_, ?_, ?_⟩
    · cases kind with
      | lsl => exact shiftByImm_lsl_value _ m amount
      | lsr => exact shiftByImm_lsr_value _ m amount
      | asr => exact shiftByImm_asr_value _ m amount
      | ror => exact shiftByImm_ror_value _ m amount
    · cases idx <;> rfl
    · cases idx <;> rfl
    · rw [loadStoreAllowed_iff, writesBase_iff]
  · intro o reads word
    refine ⟨fun h => ?_, fun h => ?_⟩
    · intro a base
      rw [exec_ldr hc h, exec_ldrb hc h]
      exact ⟨armLoad_loads h rfl, armLoad_loads h (readMem_byte s a)⟩
    · intro a base
      have addr : a = singleAddr s .postIndexed u rn o := rfl
      rw [exec_ldrt hc h, exec_ldrbt hc h, addr]
      exact ⟨armLoad_loads h rfl, armLoad_loads h (readMem_byte s _)⟩

/-- Settles O30: the four stores as one form, performed (`armStore_stores`) or ignored (`armStore_ignoresStore`). -/
theorem wordAndByteStores : Obligations.WordAndByteStores := by
  intro c u idx rn rd off s hc hwf o ends word
  refine ⟨fun h => ?_, fun h => ?_, fun h => ?_⟩
  · have stored : storeReg s rd = word := rfl
    dsimp only [ends]
    rw [exec_str hc h, stored]
    exact ⟨armStore_stores h hwf, armStore_ignoresStore h⟩
  · dsimp only [ends]
    rw [exec_strb hc h]
    exact ⟨armStore_stores h hwf, armStore_ignoresStore h⟩
  · intro base
    have addr : armReg s rn = singleAddr s .postIndexed u rn o := rfl
    dsimp only [ends]
    rw [exec_strt hc h, exec_strbt hc h, addr]
    exact ⟨⟨armStore_stores h hwf, armStore_ignoresStore h⟩, armStore_stores h hwf, armStore_ignoresStore h⟩

/-- Settles O31: as for words and bytes, after the checks of mode 3 (`mode3_passed`, `mode3_unaligned`). -/
theorem halfwordAndSignedTransfers : Obligations.HalfwordAndSignedTransfers := by
  intro c u idx rn rd off s hc hz h o a base reads
  refine ⟨?_, fun even => ?_, fun odd => ?_⟩
  · rw [exec_ldrsb hc hz h]
    exact armLoad_loads h (congrArg sext (fld_readMem_byte s a))
  · rw [exec_ldrh hc hz h even, exec_ldrsh hc hz h even, exec_strh hc hz h even]
    exact ⟨armLoad_loads h rfl, armLoad_loads h rfl, armStore_stores h, armStore_ignoresStore h⟩
  · have unaligned := halfAligned_eq_false odd
    simp only [List.forall_mem_cons, List.not_mem_nil, false_implies, implies_true, and_true]
    exact ⟨mode3_unaligned hc hz h unaligned, mode3_unaligned hc hz h unaligned, mode3_unaligned hc hz h unaligned⟩

/-- Settles O29: an aligned load to the PC is the exchange of state after the write-back, `branchExchange_loadsPc`. -/
theorem loadToThePc : Obligations.LoadToThePc := by
  intro c u idx rn off s hc _ h o a base v r
  have form : r = _ := exec_ldr_pc hc h
  refine ⟨fun ha => form.trans (if_neg ha), fun ha hok => ?_⟩
  have answered : r = loadPc v (singleBase s idx u rn o (latched _ 0 s)) :=
    (form.trans (if_pos ha)).trans (guarded_ok hok _ _)
  have pins : (singleBase s idx u rn o (latched (dataAccess s false .word false false a) 0 s)).pins = s.pins :=
    singleBase_pins s idx u rn o _
  have exchange : s.pins.disLTBit = false → r = branchExchange v (singleBase s idx u rn o (latched _ 0 s)) :=
    fun low => answered.trans (loadPc_exchange (pins ▸ low))
  refine ⟨fun low hv => ?_, fun low hv => ?_, fun high => ?_⟩
  · rw [exchange low]
    exact (branchExchange_loadsPc (s := latched _ 0 s) hv fun hw => (base_of_allowed h hw).1).mono
      fun _ ht => ht.of_latched rfl
  · exact (exchange low).trans (branchExchange_misaligned hv)
  · exact answered.trans (loadPc_disLTBit (pins ▸ high))

/-- Settles O34: the two refused forms, and otherwise `execPld_advances`. -/
theorem pldAndNopOnlyAdvance : Obligations.PldAndNopOnlyAdvance := by
  intro i u rn addrMode s pld
  refine ⟨⟨_, rfl, writesFlags_advance s 4⟩, fun h => ⟨_, execPld_advances h u rn s, writesFlags_advance s 4⟩,
    fun hi h4 => ?_, fun hi h4 h15 => ?_⟩
  · exact if_pos (by rw [hi, h4]; rfl)
  · exact (if_neg (by simp [h4])).trans (if_pos (by simp [hi, h15]))

end

/-! Register pairs (43_arm_load_store.md R307, R325): a transfer of several words of the current mode with a base
write-back ends in an advance of the PC, and what the pair rules leave. -/

namespace Sys2Proof.Machine

/-- The write-back of modes 2 and 3, by the base it writes if it writes one. -/
theorem singleBase_eq_elim (s : State) (idx : Index) (u : Bool) (rn : Reg) (o : Word) (t : State) :
    singleBase s idx u rn o t = (Index.newBase idx (armReg s rn) o u).elim t fun b => setReg rn b t := by
  rcases singleBase_cases s idx u rn o t with ⟨_, e1, e2⟩ | ⟨_, b, e1, e2⟩ <;> rw [e1, e2] <;> rfl

theorem writesBase_of_newBase {idx : Index} {base o b : Word} {u : Bool} (h : Index.newBase idx base o u = some b) :
    Index.writesBase idx = true := by
  cases idx with
  | offset => cases h
  | _ => rfl

section
variable {s : State} {regs : List Reg} {a : Word} {rn : Reg} {base : Option Word}

theorem loadList_setReg_done (restore : State → State) (h : LoadsAnswered s a regs.length) :
    loadList setReg restore regs a s = .done (putLoaded (setRegAt (mode s)) regs a s) := by
  rw [loadList_done setReg restore (fun r v t => ⟨sameBus_setReg r v t, setReg_mem r v t⟩) regs a s h, putLoaded_setReg]

/-- The end of a load of several registers of the current mode that does not write the PC. -/
theorem loadsMany_advance (len : Word) (hd : regs.Nodup) (h15 : (15 : Reg) ∉ regs)
    (hrn : ∀ b, base = some b → rn ≠ 15 ∧ rn ∉ regs) :
    let loaded := putLoaded (setRegAt (mode s)) regs a s
    LoadsMany s (mode s) regs a rn base (s.pc + len) s.cpsr s.userBankHazard
      (advance len (base.elim loaded fun b => setReg rn b loaded)) := by
  intro loaded
  have apart : ∀ b, base = some b → rn ≠ 15 ∧ ∀ r ∈ regs, bankIndex (mode s) r ≠ bankIndex (mode s) rn := by
    intro b hb
    obtain ⟨hpc, hmem⟩ := hrn b hb
    refine ⟨hpc, fun r hr e => hmem ?_⟩
    exact bankIndex_inj _ _ _ (fun e15 => h15 (e15 ▸ hr)) hpc e ▸ hr
  have latch : LatchKept s loaded := latchKept_putLoaded (mode s) regs a s
  cases base with
  | none =>
    have h := loadsMany_putLoaded s (mode s) regs a rn none hd h15 apart (advance len loaded) latch
      (by simp [advance, loaded])
    simpa [loaded] using h
  | some b =>
    have h := loadsMany_putLoaded s (mode s) regs a rn (some b) hd h15 apart (advance len (setReg rn b loaded))
      (fun hk => (setReg_chainOut rn b loaded).trans (latch hk)) (by simp [advance, loaded])
    simpa [loaded] using h

/-- The end of a store of several words that leaves the mark of the User bank as it was. -/
theorem storesMany_advance (len : Word) {words : List Word} (hw : Memory.wf s.mem = true) (hl : words.length ≤ 2 ^ 30)
    (hrn : ∀ b, base = some b → rn ≠ 15) :
    let stored := putStored words a s
    StoresMany s len words a rn base s.userBankHazard (advance len (base.elim stored fun b => setReg rn b stored)) := by
  intro stored
  have h := storesMany_putStored s len words a rn base s.userBankHazard hw hl hrn
  have mark : (base.elim stored fun b => setReg rn b stored).userBankHazard = s.userBankHazard := by
    cases base <;> simp [stored]
  rw [← mark] at h ⊢
  exact h

end

/-- The registers that an LDRD or STRD may name (R307, R325). -/
theorem pairAllowed_iff {idx : Index} {rn rd : Reg} {off : Option Reg} : pairAllowed idx rn rd off = true ↔
    ¬ (flag 0 rd = true ∨ rd = 14 ∨ (idx ≠ .offset ∧ rn = rd + 1)) ∧ ¬ (off = some rd ∨ off = some (rd + 1)) := by
  rw [← writesBase_iff]
  cases hw : Index.writesBase idx <;> simp [pairAllowed, hw, and_assoc]

theorem pairAllowed_eq_false {idx : Index} {rn rd : Reg} {off : Option Reg}
    (h : (flag 0 rd = true ∨ rd = 14 ∨ (idx ≠ .offset ∧ rn = rd + 1)) ∨ off = some rd ∨ off = some (rd + 1)) :
    pairAllowed idx rn rd off = false := by
  rw [Bool.eq_false_iff, ne_eq, pairAllowed_iff, ← not_or, not_not]
  exact h

theorem eq_14_of_succ_eq_pc {rd : Reg} (h : rd + 1 = 15) : rd = 14 := add_right_cancel h

section
variable {c : Cond} {s : State} {u : Bool} {idx : Index} {rn rd : Reg} {off : Offset3}

theorem doubleAligned_iff {a : Word} : doubleAligned a = true ↔ fld 0 3 a = 0#3 := beq_iff_eq

theorem exec_ldrd (hc : condPassed c s.cpsr = true) (hz : offset3Sbz off = true)
    (h : loadStoreAllowed idx rn rd (offset3Reg off) false = true)
    (ha : fld 0 3 (singleAddr s idx u rn (offset3 s off)) = 0#3) :
    exec (.ldrd c u idx rn rd off) s =
      if !pairAllowed idx rn rd (offset3Reg off) then .refused .loadStoreRegisters
      else (loadList setReg (setReg rn (armReg s rn)) [rd, rd + 1] (singleAddr s idx u rn (offset3 s off)) s).thenDo
        fun t => .next (advance 4 (singleBase s idx u rn (offset3 s off) t)) :=
  mode3_passed hc hz h (doubleAligned_iff.mpr ha) _

theorem exec_strd (hc : condPassed c s.cpsr = true) (hz : offset3Sbz off = true)
    (h : loadStoreAllowed idx rn rd (offset3Reg off) false = true)
    (ha : fld 0 3 (singleAddr s idx u rn (offset3 s off)) = 0#3) :
    exec (.strd c u idx rn rd off) s =
      if !pairAllowed idx rn rd none then .refused .loadStoreRegisters
      else (storeList [armReg s rd, armReg s (rd + 1)] (singleAddr s idx u rn (offset3 s off)) s).thenDo
        fun t => .next (advance 4 (singleBase s idx u rn (offset3 s off) t)) :=
  mode3_passed hc hz h (doubleAligned_iff.mpr ha) _

variable {o a : Word}

theorem loadPair_loadsMany (hrd : rd ≠ 15) (hb : Index.writesBase idx = true → rn ≠ 15 ∧ rd ≠ rn)
    (hp : pairAllowed idx rn rd none = true) (hok : LoadsAnswered s a 2) (restore : State → State) :
    Completes ((loadList setReg restore [rd, rd + 1] a s).thenDo fun t => .next (advance 4 (singleBase s idx u rn o t)))
      (LoadsMany s (mode s) [rd, rd + 1] a rn (Index.newBase idx (armReg s rn) o u) (s.pc + 4) s.cpsr
        s.userBankHazard) := by
  obtain ⟨hpair, _⟩ := pairAllowed_iff.mp hp
  have done := loadList_setReg_done (regs := [rd, rd + 1]) restore hok
  refine ⟨_, by rw [done]; rfl, ?_⟩
  rw [singleBase_eq_elim]
  refine loadsMany_advance 4 (by simp) ?_ fun b hbase => ?_
  · have second : rd + 1 ≠ 15 := fun e => hpair (.inr (.inl (eq_14_of_succ_eq_pc e)))
    exact fun hm => (List.mem_pair.mp hm).elim hrd.symm second.symm
  · have hw := writesBase_of_newBase hbase
    obtain ⟨hrn, hrdn⟩ := hb hw
    have second : rn ≠ rd + 1 := fun e => hpair (.inr (.inr ⟨writesBase_iff.mp hw, e⟩))
    exact ⟨hrn, fun hm => (List.mem_pair.mp hm).elim hrdn.symm second⟩

theorem storeList_storesMany {words : List Word} (hl : words.length ≤ 2 ^ 30) (hwf : Memory.wf s.mem = true)
    (hb : Index.writesBase idx = true → rn ≠ 15) (hok : StoresAnswered s words a) :
    Completes ((storeList words a s).thenDo fun t => .next (advance 4 (singleBase s idx u rn o t)))
      (StoresMany s 4 words a rn (Index.newBase idx (armReg s rn) o u) s.userBankHazard) := by
  refine ⟨_, by rw [storeList_done words a s hok]; rfl, ?_⟩
  rw [singleBase_eq_elim]
  exact storesMany_advance 4 hwf hl fun b hbase => hb (writesBase_of_newBase hbase)

end

end Sys2Proof.Machine

section
open Sys2Proof Sys2Proof.Machine

/-- Settles O32: after the checks of mode 3 the pair rules decide (`pairAllowed_iff`), and the two transfers end as
`loadPair_loadsMany` and `storeList_storesMany` say. -/
theorem doublewordTransfers : Obligations.DoublewordTransfers := by
  intro c u idx rn rd off s hc hz h o a base forbidden offsetInPair
  refine ⟨fun ha => ?_, fun ha => ?_⟩
  · have load := exec_ldrd hc hz h ha
    have store := exec_strd hc hz h ha
    have noOffset : ¬ ((none : Option Reg) = some rd ∨ (none : Option Reg) = some (rd + 1)) := by simp
    refine ⟨fun hf ho hok => ?_, fun hf hwf hok => ?_, fun hf => ?_, fun ho => ?_⟩
    · rw [load, pairAllowed_iff.mpr ⟨hf, ho⟩]
      exact loadPair_loadsMany (rd_ne_pc_of_allowed h) (base_of_allowed h) (pairAllowed_iff.mpr ⟨hf, noOffset⟩) hok _
    · rw [store, pairAllowed_iff.mpr ⟨hf, noOffset⟩]
      exact storeList_storesMany (by simp) hwf (fun hw => (base_of_allowed h hw).1) hok
    · simp only [List.forall_mem_cons, List.not_mem_nil, false_implies, implies_true, and_true]
      rw [load, store, pairAllowed_eq_false (.inl hf), pairAllowed_eq_false (.inl hf)]
      exact ⟨rfl, rfl⟩
    · rw [load, pairAllowed_eq_false (.inr ho)]
      rfl
  · have unaligned : doubleAligned a = false := by simpa [doubleAligned] using ha
    simp only [List.forall_mem_cons, List.not_mem_nil, false_implies, implies_true, and_true]
    exact ⟨mode3_unaligned hc hz h unaligned, mode3_unaligned hc hz h unaligned⟩

end

/-! What an access is answered (20_memory.md R101 to R104, R112; 92_eei_decisions.md D8; log entry 15), and how swaps and
Thumb transfers stop when it is not answered (44_arm_load_store_multiple.md R360; 48_thumb_branch_load_store.md R490). -/

namespace Sys2Proof.Machine

/-- A field that an access rule leaves open matches every access. -/
theorem getD_eq_self_iff {α : Type} {field : Option α} {x : α} :
    field.getD x = x ↔ ∀ y, field = some y → y = x := by
  cases field <;> simp

theorem covers_iff {r : AccessRule} {a : Access} : r.covers a = true ↔
    r.fetch = a.fetch ∧ r.lo ≤ a.addr ∧ a.addr ≤ r.hi ∧ (∀ z, r.size = some z → z = a.size) ∧
      (∀ w, r.write = some w → w = a.write) ∧ (∀ p, r.priv = some p → p = a.priv) ∧
      (∀ m, r.mode = some m → m = a.mode) ∧ (∀ l, r.locked = some l → l = a.locked) := by
  simp only [AccessRule.covers, Bool.and_eq_true, beq_iff_eq, decide_eq_true_iff, getD_eq_self_iff, and_assoc]

theorem platformAborts_iff {s : State} {a : Access} :
    platformAborts s a = true ↔ ∃ r ∈ s.accessRules, r.answer = .abort ∧ r.covers a = true := by
  simp [platformAborts]

theorem platformIgnores_iff {s : State} {a : Access} : platformIgnores s a = true ↔
    a.write = true ∧ ∃ r ∈ s.accessRules, r.answer = .ignoreWrite ∧ r.covers a = true := by
  simp [platformIgnores]

theorem debugMatch_off {s : State} (h : s.pins.dbgEn = false) (a : Access) (bus : Word) : debugMatch s a bus = .none := by
  simp [debugMatch, unitsMatch, comparatorsOn, h]

/-- With DBGEN LOW the platform alone answers (60_exceptions.md R601). -/
theorem dataAnswer_off {s : State} (h : s.pins.dbgEn = false) (a : Access) (v : Word) : dataAnswer s a v =
    if platformAborts s a then .abort else if platformIgnores s a then .ignored else .ok := by
  simp [dataAnswer, debugMatch_off h]

/-! Swaps (R360). -/

section
variable {c : Cond} {s : State} {z : Size} {rn rd rm : Reg} {old : Word}

theorem swapOp_passed (hc : condPassed c s.cpsr = true) (hrd : rd ≠ 15) (hrm : rm ≠ 15) (hrn : rn ≠ 15) (hnm : rn ≠ rm)
    (hnd : rn ≠ rd) :
    let write := dataAccess s false z true true (armReg s rn)
    let new := armReg s rm
    swapOp c z rn rd 0 rm old s = guarded s (dataAccess s false z false true (armReg s rn)) 0 id fun t =>
      guarded t write new (perform write new) fun t' => .next (advance 4 (setReg rd old (perform write new t'))) := by
  intro write new
  refine (whenPassed_of_passed hc _).trans ((if_neg (by simp)).trans (if_neg ?_))
  rw [Bool.or_eq_true, Bool.or_eq_true, anyPc_iff, beq_iff_eq, beq_iff_eq]
  rintro ((hpc | e) | e)
  · simp only [List.mem_cons, List.not_mem_nil, or_false] at hpc
    exact hpc.elim hrd.symm fun h => h.elim hrm.symm hrn.symm
  · exact hnm e
  · exact hnd e

/-- A swap stops at its read, or at its write once the read is answered. -/
theorem swapOp_stops (hc : condPassed c s.cpsr = true) (hrd : rd ≠ 15) (hrm : rm ≠ 15) (hrn : rn ≠ 15) (hnm : rn ≠ rm)
    (hnd : rn ≠ rd) :
    let read := dataAccess s false z false true (armReg s rn)
    StopsAtAccess s s (swapOp c z rn rd 0 rm old s) read 0 [] ∧
    (dataAnswer s read 0 = .ok → StopsAtAccess s (latched read 0 s) (swapOp c z rn rd 0 rm old s)
      (dataAccess s false z true true (armReg s rn)) (armReg s rm) []) := by
  intro read
  rw [swapOp_passed hc hrd hrm hrn hnm hnd]
  refine ⟨guarded_read_stopped rfl _, fun hok => ?_⟩
  rw [guarded_ok hok]
  exact StopsAtAccess.of_latched rfl (guarded_store_stopped rfl rfl (armReg s rm) _)

end

/-! Thumb transfers: the addresses as the rules write them, and the endings. -/

section
variable {s : State} {z : Size} {addr v : Word} {rd : LowReg} {r : Result}

theorem lowReg_ne_pc (r : LowReg) : lowReg r ≠ 15 := by
  revert r
  decide

theorem low_eq_armReg (s : State) (r : LowReg) : low s r = armReg s (lowReg r) := by
  simp only [low, thumbReg, armReg, readReg, if_neg (lowReg_ne_pc r)]

theorem shiftLeft_two_eq (v : Word) : v <<< 2 = 4 * v := by
  rw [BitVec.shiftLeft_eq_mul_twoPow, BitVec.mul_comm]
  rfl

theorem shiftLeft_one_eq (v : Word) : v <<< 1 = 2 * v := by
  rw [BitVec.shiftLeft_eq_mul_twoPow, BitVec.mul_comm]
  rfl

theorem regOffset_eq (s : State) (ro rb : LowReg) :
    regOffset s ro rb = armReg s (lowReg rb) + armReg s (lowReg ro) := by
  rw [regOffset, low_eq_armReg, low_eq_armReg]

theorem immOffset_word_eq (s : State) (imm5 : BitVec 5) (rb : LowReg) :
    immOffset s imm5 rb 2 = armReg s (lowReg rb) + 4 * zext imm5 := by
  rw [immOffset, low_eq_armReg, shiftLeft_two_eq]

theorem immOffset_half_eq (s : State) (imm5 : BitVec 5) (rb : LowReg) :
    immOffset s imm5 rb 1 = armReg s (lowReg rb) + 2 * zext imm5 := by
  rw [immOffset, low_eq_armReg, shiftLeft_one_eq]

theorem immOffset_byte_eq (s : State) (imm5 : BitVec 5) (rb : LowReg) :
    immOffset s imm5 rb 0 = armReg s (lowReg rb) + zext imm5 := by
  rw [immOffset, low_eq_armReg, BitVec.shiftLeft_zero]

theorem spOffset_eq (s : State) (imm8 : BitVec 8) : spOffset s imm8 = regAt s (mode s) 13 + 4 * zext imm8 := by
  rw [spOffset, shiftLeft_two_eq]
  rfl

theorem thumbPcBase_offset_eq (s : State) (imm8 : BitVec 8) :
    thumbPcBase s + (zext imm8 <<< 2) = ((s.pc + 4) &&& 0xFFFFFFFC) + 4 * zext imm8 := by
  rw [shiftLeft_two_eq]
  rfl

theorem thumbHalf_aligned (h : flag 0 addr = false) : thumbHalf addr r = r := if_pos (halfAligned_eq_true h)

theorem thumbLoad_stops : StopsAtAccess s s (thumbLoad z addr rd v s) (dataAccess s false z false false addr) 0
    [(mode s, lowReg rd)] :=
  loadTo_stops rfl

theorem thumbStore_stops : StopsAtAccess s s (thumbStore z addr rd s) (dataAccess s false z true false addr)
    (armReg s (lowReg rd)) [] := by
  rw [thumbStore, low_eq_armReg]
  exact storeFrom_stops rfl rfl

end

end Sys2Proof.Machine

section
open Sys2Proof Sys2Proof.Machine

/-- Settles O35: the access rules clause by clause, then each instruction as a load, a store or a swap that stops at its
access (`armLoad_stops`, `armStore_stops`, `swapOp_stops`, `thumbLoad_stops`, `thumbStore_stops`). -/
theorem abortedTransferChangesNothing : Obligations.AbortedTransferChangesNothing := by
  refine ⟨fun _ _ _ _ _ _ => rfl, fun s a v => ?_, fun c u idx rn rd rm off off3 ro rb tr imm5 imm8 s => ?_⟩
  · intro covers
    have covered : ∀ r : AccessRule, r.covers a = true ↔ covers r := fun _ => covers_iff
    refine ⟨?_, ?_, fun h => dataAnswer_off h a v⟩
    · simp only [platformAborts_iff, covered]
    · simp only [platformIgnores_iff, covered]
  · intro seen ends a a3 b v loads stores swaps x o tLoads tStores spRel
    have stops : ∀ {i r acc v dst}, exec i s = r → StopsAtAccess s s r acc v dst → ends i acc v dst := by
      rintro i _ acc v dst rfl h
      exact h
    have reg : regOffset s ro rb = x + o := regOffset_eq s ro rb
    have immWord : immOffset s imm5 rb 2 = x + 4 * zext imm5 := immOffset_word_eq s imm5 rb
    have immHalf : immOffset s imm5 rb 1 = x + 2 * zext imm5 := immOffset_half_eq s imm5 rb
    have immByte : immOffset s imm5 rb 0 = x + zext imm5 := immOffset_byte_eq s imm5 rb
    have sp : spOffset s imm8 = spRel := spOffset_eq s imm8
    rw [← reg, ← immWord, ← immHalf, ← immByte, ← sp, ← thumbPcBase_offset_eq s imm8]
    refine ⟨fun hc => ⟨fun h => ?_, fun h => ?_, fun h => ?_, fun hz h => ?_, fun hrd hrm hrn hnm hnd => ?_⟩,
      ?_⟩
    · have stored : storeReg s rd = v := if_neg (rd_ne_pc_of_allowed h)
      exact ⟨stops (exec_ldr hc h) armLoad_stops, stops (exec_ldrb hc h) armLoad_stops,
        stops (stored ▸ exec_str hc (loadStoreAllowed_pcOk h)) armStore_stops, stops (exec_strb hc h) armStore_stops⟩
    · exact ⟨fun ha => stops ((exec_ldr_pc hc h).trans (if_pos ha)) (guarded_read_stopped rfl _),
        stops (exec_str hc h) armStore_stops⟩
    · have addr : b = singleAddr s .postIndexed u rn (offset2 s off) := rfl
      rw [addr]
      exact ⟨stops (exec_ldrt hc h) armLoad_stops, stops (exec_ldrbt hc h) armLoad_stops,
        stops (exec_strt hc h) armStore_stops, stops (exec_strbt hc h) armStore_stops⟩
    · exact ⟨stops (exec_ldrsb hc hz h) armLoad_stops, fun even => ⟨stops (exec_ldrh hc hz h even) armLoad_stops,
        stops (exec_ldrsh hc hz h even) armLoad_stops, stops (exec_strh hc hz h even) armStore_stops⟩⟩
    · exact ⟨swapOp_stops hc hrd hrm hrn hnm hnd, swapOp_stops hc hrd hrm hrn hnm hnd⟩
    · refine ⟨thumbLoad_stops, thumbLoad_stops, thumbStore_stops, thumbLoad_stops, thumbStore_stops, thumbLoad_stops,
        thumbStore_stops, thumbLoad_stops, thumbLoad_stops, thumbStore_stops, thumbLoad_stops, thumbStore_stops,
        fun even => ⟨?_, ?_, ?_⟩, fun even => ⟨?_, ?_⟩⟩
      · exact stops (thumbHalf_aligned even) thumbLoad_stops
      · exact stops (thumbHalf_aligned even) thumbLoad_stops
      · exact stops (thumbHalf_aligned even) thumbStore_stops
      · exact stops (thumbHalf_aligned even) thumbLoad_stops
      · exact stops (thumbHalf_aligned even) thumbStore_stops

end

/-! Register lists (44_arm_load_store_multiple.md R342; 30_encoding.md R156). -/

namespace Sys2Proof.Machine

section
variable {n : Nat}

theorem mem_listedRegs {list : BitVec n} {r : Reg} (hn : n ≤ 16) :
    r ∈ listedRegs list ↔ list.getLsbD r.toNat = true := by
  simp only [listedRegs, List.mem_map, List.mem_filter, List.mem_range]
  constructor
  · rintro ⟨i, ⟨hi, hbit⟩, rfl⟩
    rwa [BitVec.toNat_ofNat, Nat.mod_eq_of_lt (by omega)]
  · exact fun h => ⟨r.toNat, ⟨BitVec.lt_of_getLsbD h, h⟩, BitVec.ofNat_toNat 4 r⟩

theorem pairwise_listedRegs (list : BitVec n) (hn : n ≤ 16) : (listedRegs list).Pairwise (· < ·) := by
  rw [listedRegs, List.pairwise_map]
  refine (List.pairwise_lt_range.filter _).imp_of_mem fun {i j} hi hj hij => ?_
  have small : ∀ {k}, k ∈ (List.range n).filter (fun i => list.getLsbD i) → k < 2 ^ 4 := fun hk =>
    (List.mem_range.mp (List.mem_filter.mp hk).1).trans_le hn
  rwa [BitVec.lt_def, BitVec.toNat_ofNat, BitVec.toNat_ofNat, Nat.mod_eq_of_lt (small hi), Nat.mod_eq_of_lt (small hj)]

theorem nodup_listedRegs (list : BitVec n) (hn : n ≤ 16) : (listedRegs list).Nodup :=
  (pairwise_listedRegs list hn).imp fun h => BitVec.ne_of_lt h

/-- A list of 15 bits or fewer does not name r15. -/
theorem pc_notMem_listedRegs (list : BitVec n) (hn : n ≤ 15) : (15 : Reg) ∉ listedRegs list := by
  have unset : list.getLsbD (15 : Reg).toNat = false := BitVec.getLsbD_of_ge list _ hn
  rw [mem_listedRegs (by omega), unset]
  exact Bool.false_ne_true

theorem listedRegs_ne_nil {list : BitVec n} (hn : n ≤ 16) (h : list ≠ 0) : listedRegs list ≠ [] := by
  contrapose! h
  refine BitVec.eq_of_getLsbD_eq fun i hi => ?_
  have out : BitVec.ofNat 4 i ∉ listedRegs list := by simp [h]
  rw [mem_listedRegs hn, BitVec.toNat_ofNat, Nat.mod_eq_of_lt (by omega)] at out
  simpa using out

/-- r15 is the last register of a list (R342). -/
theorem listedRegs_sixteen (list : BitVec 16) :
    listedRegs list = listedRegs (list.setWidth 15) ++ if list.getLsbD 15 then [15] else [] := by
  have low : (List.range 15).filter (fun i => list.getLsbD i) =
      (List.range 15).filter (fun i => (list.setWidth 15).getLsbD i) :=
    List.filter_congr fun i hi => by simp [List.mem_range.mp hi]
  rw [listedRegs, List.range_succ, List.filter_append, List.map_append, low, List.filter_singleton]
  cases list.getLsbD 15 <;> rfl

theorem filter_ne_pc_listedRegs (list : BitVec 16) :
    (listedRegs list).filter (· != 15) = listedRegs (list.setWidth 15) := by
  have kept : (listedRegs (list.setWidth 15)).filter (· != 15) = listedRegs (list.setWidth 15) :=
    List.filter_eq_self.mpr fun r hr => bne_iff_ne.mpr fun e => pc_notMem_listedRegs _ le_rfl (e ▸ hr)
  rw [listedRegs_sixteen, List.filter_append, kept]
  split <;> simp

end

end Sys2Proof.Machine

section
open Sys2Proof Sys2Proof.Machine

/-- Settles O37: the list filters an ascending range (`pairwise_listedRegs`) by its bits (`mem_listedRegs`). -/
theorem registerListsAscend : Obligations.RegisterListsAscend :=
  fun _ list hn => ⟨pairwise_listedRegs list hn, fun _ => mem_listedRegs hn⟩

end

/-! Swaps (44_arm_load_store_multiple.md R360, R361): how one whose read is answered ends, by the answer to its
write. -/

namespace Sys2Proof.Machine

/-- `t` is `s` after a swap at the address `a` whose write of `m` was answered `write`, with `old` in `Rd`. -/
def SwapEnds (s : State) (z : Size) (a m : Word) (rd : Reg) (old : Word) (write : AccessAnswer) (t : State) : Prop :=
  regAt t (mode s) rd = old ∧ RegsKept s t [(mode s, rd)] ∧
    (write = .ok → memGetBytes t.mem (z.align a).toNat z.bytes = laneBytes s.pins.bigEndian z m ∧
      MemKeptOutside s t z a) ∧
    (write = .ignored → MemKept s t) ∧ t.cpsr = s.cpsr ∧ t.pc = s.pc + 4 ∧ SpecialsKept s t

/-- A store is nothing to what `SpecialsKept` lists. -/
theorem SpecialsKept.of_writeMem {s t : State} {z : Size} {a v : Word} (h : SpecialsKept (writeMem z a v s) t) :
    SpecialsKept s t :=
  ⟨⟨h.spsrs.fiq, h.spsrs.irq, h.spsrs.svc, h.spsrs.abt, h.spsrs.und⟩, ⟨h.outside.pins, h.outside.lines,
    h.outside.accessRules, h.outside.inputs, h.outside.tick⟩, h.dbg, h.latch, h.cops, h.hazard, h.entered⟩

section
variable {c : Cond} {s : State} {z : Size} {a m : Word} {rn rd rm : Reg} {old : Word}

theorem SwapEnds.of_latched {acc : Access} {x : Word} {write : AccessAnswer} {t : State} (ha : acc.fetch = false)
    (h : SwapEnds (latched acc x s) z a m rd old write t) : SwapEnds s z a m rd old write t := by
  obtain ⟨result, others, stored, ignored, cpsr, pc, specials⟩ := h
  exact ⟨result, others, stored, ignored, cpsr, pc, specials.of_latched ha⟩

theorem swapEnds_stored (hwf : Memory.wf s.mem = true) (hrd : rd ≠ 15) :
    SwapEnds s z a m rd old .ok (advance 4 (setReg rd old (writeMem z a m s))) := by
  have h := writesReg_setReg (writeMem z a m s) 4 rd old hrd
  refine ⟨h.result, h.others, fun _ => ⟨?_, ?_, ?_⟩, fun hne => (nomatch hne), h.cpsr, h.pc, h.specials.of_writeMem⟩
  · simpa using writeMem_same z a m s hwf
  · intro x hx
    simpa using writeMem_other z a m s x hx
  · exact h.memory.2

theorem swapEnds_ignored (hrd : rd ≠ 15) : SwapEnds s z a m rd old .ignored (advance 4 (setReg rd old s)) := by
  have h := writesReg_setReg s 4 rd old hrd
  exact ⟨h.result, h.others, fun hne => (nomatch hne), fun _ => h.memory, h.cpsr, h.pc, h.specials⟩

/-- The read is answered first and the latch sees it; then the write is performed or ignored. -/
theorem swapOp_ends (hc : condPassed c s.cpsr = true) (hrd : rd ≠ 15) (hrm : rm ≠ 15) (hrn : rn ≠ 15) (hnm : rn ≠ rm)
    (hnd : rn ≠ rd) (hwf : Memory.wf s.mem = true) :
    let read := dataAccess s false z false true (armReg s rn)
    let write := dataAnswer (latched read 0 s) (dataAccess s false z true true (armReg s rn)) (armReg s rm)
    dataAnswer s read 0 = .ok → write = .ok ∨ write = .ignored →
    Completes (swapOp c z rn rd 0 rm old s) (SwapEnds s z (armReg s rn) (armReg s rm) rd old write) := by
  intro read write hread hwrite
  let after := latched (dataAccess s false z true true (armReg s rn)) (armReg s rm) (latched read 0 s)
  have unlatch : ∀ {t}, SwapEnds after z (armReg s rn) (armReg s rm) rd old write t → SwapEnds s z _ _ rd old write t :=
    fun h => SwapEnds.of_latched (acc := read) (x := 0) rfl (h.of_latched rfl)
  rw [swapOp_passed hc hrd hrm hrn hnm hnd, guarded_ok hread]
  obtain hok | hignored := hwrite
  · refine ⟨_, guarded_ok hok _ _, ?_⟩
    rw [perform_ok hok]
    exact unlatch (hok ▸ swapEnds_stored (s := after) hwf hrd)
  · refine ⟨_, guarded_ignored hignored _ _, ?_⟩
    rw [perform_ignored hignored]
    exact unlatch (hignored ▸ swapEnds_ignored (s := after) hrd)

end

end Sys2Proof.Machine

section
open Sys2Proof Sys2Proof.Machine

/-- Settles O33: both sizes are `swapOp`, which ends as `swapOp_ends` says. -/
theorem swapReadsThenWrites : Obligations.SwapReadsThenWrites := by
  intro c rn rd rm s hc hrd hrm hrn hnm hnd hwf a m ends
  refine ⟨swapOp_ends hc hrd hrm hrn hnm hnd hwf, ?_⟩
  dsimp only [ends]
  rw [← readMem_byte s a]
  exact swapOp_ends hc hrd hrm hrn hnm hnd hwf

end

/-! Load and store multiple (44_arm_load_store_multiple.md R341 to R352): each instruction once its checks pass, and
how it ends when every transfer is answered. -/

namespace Sys2Proof.Machine

section
variable {c : Cond} {am : BlockMode} {w : Bool} {rn : Reg} {s : State}

theorem blockAllowed_eq_true (h : rn ≠ 15) : blockAllowed rn = true := bne_iff_ne.mpr h

/-- The check of the base lets a form through whose base is not r15 and, if written back, not listed (R343). -/
theorem base_check {listed : Bool} (hrn : rn ≠ 15) (hw : w = true → listed = false) :
    ¬ (!blockAllowed rn || (w && listed)) = true := by
  rw [blockAllowed_eq_true hrn]
  cases w with
  | false => simp
  | true => simp [hw rfl]

/-- The check of the User-bank forms lets through a mode with registers of its own (log entry 42). -/
theorem userBank_check (hrn : rn ≠ 15) (hu : mode s ≠ modeUser) (hy : mode s ≠ modeSys) :
    ¬ (!blockAllowed rn || false || mode s == modeUser || mode s == modeSys) = true := by
  simp [blockAllowed_eq_true hrn, hu, hy]

theorem exec_ldm1 {list : BitVec 16} (hc : condPassed c s.cpsr = true) (hl : list ≠ 0) (hrn : rn ≠ 15)
    (hw : w = true → list.getLsbD rn.toNat = false) :
    exec (.ldm1 c am w rn list) s = blockLoad am w rn (listedRegs list) s fun v t =>
      if list.getLsbD 15 then loadPc v t else .next (advance 4 t) :=
  (whenPassed_of_passed hc _).trans ((if_neg hl).trans (if_neg (base_check hrn hw)))

theorem exec_ldm2 {list : BitVec 15} (hc : condPassed c s.cpsr = true) (hl : list ≠ 0) (hrn : rn ≠ 15)
    (hu : mode s ≠ modeUser) (hy : mode s ≠ modeSys) :
    exec (.ldm2 c am false rn list) s =
      (loadList (setRegAt modeUser) (setReg rn (armReg s rn)) (listedRegs list)
        (blockStart am (armReg s rn) (listedRegs list).length) s).thenDo fun t =>
          .next { advance 4 t with userBankHazard := true } :=
  (whenPassed_of_passed hc _).trans ((if_neg hl).trans (if_neg (userBank_check hrn hu hy)))

theorem exec_ldm3 {list : BitVec 15} (hc : condPassed c s.cpsr = true) (hrn : rn ≠ 15)
    (hw : w = true → list.getLsbD rn.toNat = false) (hq : spsr s ≠ none) :
    exec (.ldm3 c am w rn list) s = blockLoad am w rn (listedRegs list ++ [15]) s exceptionReturn :=
  (whenPassed_of_passed hc _).trans ((if_neg (base_check hrn hw)).trans (if_neg hq))

theorem exec_ldm3_noSpsr {list : BitVec 15} (hc : condPassed c s.cpsr = true) (hrn : rn ≠ 15)
    (hw : w = true → list.getLsbD rn.toNat = false) (hq : spsr s = none) :
    exec (.ldm3 c am w rn list) s = .refused .noSpsr :=
  refused_second hc (base_check hrn hw) hq

theorem exec_stm1 {list : BitVec 16} (hc : condPassed c s.cpsr = true) (hl : list ≠ 0) (hrn : rn ≠ 15) :
    exec (.stm1 c am w rn list) s =
      (storeList (storedWords s (mode s) w rn (listedRegs list))
        (blockStart am (armReg s rn) (listedRegs list).length) s).thenDo fun t =>
          .next (advance 4 (if w then setReg rn (blockEnd am (armReg s rn) (listedRegs list).length) t else t)) :=
  (whenPassed_of_passed hc _).trans ((if_neg hl).trans (if_neg (by simp [blockAllowed_eq_true hrn])))

theorem exec_stm2 {list : BitVec 16} (hc : condPassed c s.cpsr = true) (hl : list ≠ 0) (hrn : rn ≠ 15)
    (hu : mode s ≠ modeUser) (hy : mode s ≠ modeSys) :
    exec (.stm2 c am false rn list) s =
      (storeList (storedWords s modeUser false rn (listedRegs list))
        (blockStart am (armReg s rn) (listedRegs list).length) s).thenDo fun t =>
          .next { advance 4 t with userBankHazard := true } :=
  (whenPassed_of_passed hc _).trans ((if_neg hl).trans (if_neg (userBank_check hrn hu hy)))

end

/-- The base that a multiple transfer of `n` words writes back, if it writes one (R341). -/
def blockBase (am : BlockMode) (w : Bool) (base : Word) (n : Nat) : Option Word :=
  if w then some (blockEnd am base n) else none

/-- A base write-back, if there is one. -/
def writeBase (rn : Reg) (base : Option Word) (s : State) : State := base.elim s fun b => setReg rn b s

theorem writeBase_blockBase (am : BlockMode) (w : Bool) (rn : Reg) (b : Word) (n : Nat) (s : State) :
    writeBase rn (blockBase am w b n) s = if w then setReg rn (blockEnd am b n) s else s := by
  cases w <;> rfl

theorem writesBack_of_blockBase {am : BlockMode} {w : Bool} {b b' : Word} {n : Nat} (h : blockBase am w b n = some b') :
    w = true := by
  cases w with
  | false => cases h
  | true => rfl

theorem writesRegsOnly_writeBase (rn : Reg) (base : Option Word) : WritesRegsOnly (writeBase rn base) := by
  cases base with
  | none => exact writesRegsOnly_id
  | some b => exact writesRegsOnly_setReg rn b

section
variable {am : BlockMode} {w : Bool} {rn : Reg} {s : State} {regs : List Reg} {a : Word} {base : Option Word}

theorem writeBase_latched (acc : Access) (v : Word) :
    writeBase rn base (latched acc v s) = { writeBase rn base s with chainOut := (latched acc v s).chainOut } := by
  cases base with
  | none => rfl
  | some b =>
    by_cases h : rn = 15
    · simp only [writeBase, Option.elim, setReg, setRegAt, if_pos h]
      rfl
    · simp only [writeBase, Option.elim, setReg, setRegAt, if_neg h]
      rfl

/-- The state that a load multiple of the current mode's registers leaves before it takes the PC on. -/
def blockLoaded (am : BlockMode) (w : Bool) (rn : Reg) (regs : List Reg) (s : State) : State :=
  writeBase rn (blockBase am w (armReg s rn) regs.length)
    (putLoaded (setRegAt (mode s)) regs (blockStart am (armReg s rn) regs.length) s)

theorem blockLoad_done {k : Word → State → Result}
    (h : LoadsAnswered s (blockStart am (armReg s rn) regs.length) regs.length) :
    blockLoad am w rn regs s k =
      k (readMem s .word (blockStart am (armReg s rn) regs.length + BitVec.ofNat 32 (4 * (regs.length - 1))))
        (blockLoaded am w rn regs s) := by
  rw [blockLoad, loadList_setReg_done _ h, blockLoaded, writeBase_blockBase]
  rfl

theorem blockLoaded_eq (am : BlockMode) (w : Bool) (rn : Reg) (regs : List Reg) (s : State) :
    ∃ r, blockLoaded am w rn regs s =
      { putLoaded (setRegAt (mode s)) regs (blockStart am (armReg s rn) regs.length) s with regs := r } :=
  writesRegsOnly_writeBase rn _ _

theorem blockLoaded_pins : (blockLoaded am w rn regs s).pins = s.pins := by
  obtain ⟨_, e⟩ := blockLoaded_eq am w rn regs s
  rw [e, putLoaded_pins]

theorem blockLoaded_cpsr : (blockLoaded am w rn regs s).cpsr = s.cpsr := by
  obtain ⟨_, e⟩ := blockLoaded_eq am w rn regs s
  rw [e, putLoaded_cpsr]

theorem spsr_blockLoaded : spsr (blockLoaded am w rn regs s) = spsr s := by
  obtain ⟨_, e⟩ := blockLoaded_eq am w rn regs s
  have loaded : ∀ a, spsr (putLoaded (setRegAt (mode s)) regs a s) = spsr s := fun a => by
    rw [spsr, spsr, mode_putLoaded]
    simp [spsrAt]
  rw [e]
  exact loaded _

/-- The end of a load multiple that lists r15 last and takes the PC to `target`. -/
theorem loadsMany_branchTo (target flags : Word) (hd : regs.Nodup) (h15 : (15 : Reg) ∉ regs)
    (hrn : ∀ b, base = some b → rn ≠ 15 ∧ rn ∉ regs) :
    LoadsMany s (mode s) regs a rn base target flags s.userBankHazard
      (branchTo target (setCpsr flags (writeBase rn base (putLoaded (setRegAt (mode s)) (regs ++ [15]) a s)))) := by
  obtain ⟨acc, v, hf, e⟩ := putLoaded_pcLast (mode s) regs a s
  obtain ⟨r, he⟩ := writesRegsOnly_writeBase rn base (putLoaded (setRegAt (mode s)) regs a s)
  have apart : ∀ b, base = some b → rn ≠ 15 ∧ ∀ r ∈ regs, bankIndex (mode s) r ≠ bankIndex (mode s) rn := by
    intro b hb
    obtain ⟨hpc, hmem⟩ := hrn b hb
    exact ⟨hpc, fun r hr e => hmem (bankIndex_inj _ _ _ (fun e15 => h15 (e15 ▸ hr)) hpc e ▸ hr)⟩
  have latch : LatchKept s (latched acc v (putLoaded (setRegAt (mode s)) regs a s)) :=
    (latchKept_putLoaded (mode s) regs a s).trans (latchKept_latched acc hf v _) (by simp) (by simp)
  rw [e, writeBase_latched, he]
  have h := loadsMany_putLoaded s (mode s) regs a rn base hd h15 apart
    (branchTo target (setCpsr flags { putLoaded (setRegAt (mode s)) regs a s with
      regs := r, chainOut := (latched acc v (putLoaded (setRegAt (mode s)) regs a s)).chainOut })) latch (by
    rw [show base.elim _ _ = writeBase rn base (putLoaded (setRegAt (mode s)) regs a s) from rfl, he]
    simp [branchTo, setCpsr])
  simpa using h

/-- A base that is written back is not listed (R343). -/
theorem blockBase_unlisted {b : Word} {n : Nat} (hrn : rn ≠ 15) (hw : w = true → rn ∉ regs) :
    ∀ b', blockBase am w b n = some b' → rn ≠ 15 ∧ rn ∉ regs :=
  fun _ h => ⟨hrn, hw (writesBack_of_blockBase h)⟩

theorem blockLoaded_advance (hd : regs.Nodup) (h15 : (15 : Reg) ∉ regs) (hrn : rn ≠ 15) (hw : w = true → rn ∉ regs) :
    LoadsMany s (mode s) regs (blockStart am (armReg s rn) regs.length) rn (blockBase am w (armReg s rn) regs.length)
      (s.pc + 4) s.cpsr s.userBankHazard (advance 4 (blockLoaded am w rn regs s)) :=
  loadsMany_advance 4 hd h15 (blockBase_unlisted hrn hw)

theorem blockLoaded_branchTo (target flags : Word) (hd : regs.Nodup) (h15 : (15 : Reg) ∉ regs) (hrn : rn ≠ 15)
    (hw : w = true → rn ∉ regs) :
    LoadsMany s (mode s) regs (blockStart am (armReg s rn) (regs ++ [15]).length) rn
      (blockBase am w (armReg s rn) (regs ++ [15]).length) target flags s.userBankHazard
      (branchTo target (setCpsr flags (blockLoaded am w rn (regs ++ [15]) s))) :=
  loadsMany_branchTo target flags hd h15 (blockBase_unlisted hrn hw)

/-- The end of a load of User-mode registers, which marks the hazard (log entry 23). -/
theorem loadsMany_hazard (m : ModeBits) (hd : regs.Nodup) (h15 : (15 : Reg) ∉ regs) :
    LoadsMany s m regs a rn none (s.pc + 4) s.cpsr true
      { advance 4 (putLoaded (setRegAt m) regs a s) with userBankHazard := true } := by
  have h := loadsMany_putLoaded s m regs a rn none hd h15 (fun b hb => nomatch hb)
    { advance 4 (putLoaded (setRegAt m) regs a s) with userBankHazard := true } (latchKept_putLoaded m regs a s)
    (by simp [advance])
  simpa using h

end

section
variable {v q : Word} {t : State}

theorem loadPc_next (hpin : t.pins.disLTBit = false) (hv : fld 0 2 v ≠ 0b10#2) :
    loadPc v t = .next (branchTo (evenAddr v) (setCpsr (setBit t.cpsr 5 (flag 0 v)) t)) :=
  (loadPc_exchange hpin).trans (if_neg hv)

theorem loadPc_misaligned (hpin : t.pins.disLTBit = false) (hv : fld 0 2 v = 0b10#2) :
    loadPc v t = .refused .misalignedPc :=
  (loadPc_exchange hpin).trans (branchExchange_misaligned hv)

theorem exceptionReturn_next_thumb (hq : spsr t = some q) (ht : psrT q = true) :
    exceptionReturn v t = .next (branchTo (evenAddr v) (setCpsr q t)) := by
  rw [exceptionReturn, hq]
  exact if_pos ht

theorem exceptionReturn_next_arm (hq : spsr t = some q) (ht : psrT q = false) (hv : fld 0 2 v = 0#2) :
    exceptionReturn v t = .next (branchTo v (setCpsr q t)) := by
  rw [exceptionReturn, hq]
  exact (if_neg (ht ▸ Bool.false_ne_true)).trans (if_pos hv)

end

theorem ofNat_four_mul_sub {n : Nat} (h : 0 < n) : BitVec.ofNat 32 (4 * n) - 4 = BitVec.ofNat 32 (4 * (n - 1)) := by
  obtain ⟨k, rfl⟩ := Nat.exists_eq_succ_of_ne_zero h.ne'
  rw [Nat.succ_eq_add_one, Nat.mul_add, BitVec.ofNat_add]
  exact BitVec.add_sub_cancel _ _

section
variable {s : State} {m : ModeBits} {rn : Reg} {regs : List Reg}

theorem storedWords_eq (w : Bool) : storedWords s m w rn regs = regs.map fun r =>
    if r = 15 then storedPc s
    else if w = true ∧ r = rn ∧ regs.head? ≠ some rn then Config.storedBase s.tick else regAt s m r := by
  simp [storedWords, and_assoc]

/-- Without write-back every register is stored as it is. -/
theorem storedWords_plain : storedWords s m false rn regs =
    regs.map fun r => if r = 15 then storedPc s else regAt s m r := by
  simp [storedWords]

theorem length_storedWords (w : Bool) : (storedWords s m w rn regs).length = regs.length := List.length_map ..

end

theorem length_listedRegs_le {n : Nat} (list : BitVec n) (hn : n ≤ 16) : (listedRegs list).length ≤ 2 ^ 30 :=
  (length_listedRegs list).trans (hn.trans (by decide))

end Sys2Proof.Machine

section
open Sys2Proof Sys2Proof.Machine

/-- Settles O38: the transfers leave `blockLoaded`, with the PC advanced or, where r15 is listed and so last
(`listedRegs_sixteen`), loaded as by LDR. -/
theorem loadMultiple : Obligations.LoadMultiple := by
  intro c am w rn list s hc hl hrn hw n b size start base regs v ends hok
  have startEq : start = blockStart am b n := by cases am <;> rfl
  have baseEq : base = blockBase am w b n := by cases am <;> rfl
  have lastEq : v = readMem s .word (blockStart am b n + BitVec.ofNat 32 (4 * (n - 1))) := by
    have pos : 0 < n := List.length_pos_of_ne_nil (listedRegs_ne_nil le_rfl hl)
    rw [← ofNat_four_mul_sub pos, ← startEq]
  have regsEq : regs = listedRegs (list.setWidth 15) := filter_ne_pc_listedRegs list
  have nodup : regs.Nodup := (nodup_listedRegs list le_rfl).filter _
  have noPc : (15 : Reg) ∉ regs := regsEq ▸ pc_notMem_listedRegs _ le_rfl
  have unlisted : w = true → rn ∉ regs := fun h hm => by
    have listed := (mem_listedRegs le_rfl).mp (List.mem_of_mem_filter hm)
    exact Bool.false_ne_true ((hw h).symm.trans listed)
  have form := (exec_ldm1 (am := am) hc hl hrn hw).trans (blockLoad_done (startEq ▸ hok))
  have pcLast : list.getLsbD 15 = true → listedRegs list = regs ++ [15] := fun h => by
    rw [listedRegs_sixteen, regsEq, if_pos h]
  have loadsPc : list.getLsbD 15 = true →
      exec (.ldm1 c am w rn list) s = loadPc v (blockLoaded am w rn (regs ++ [15]) s) := fun h => by
    rw [form, if_pos h, ← pcLast h, lastEq]
  have pins := blockLoaded_pins (am := am) (w := w) (rn := rn) (regs := regs ++ [15]) (s := s)
  refine ⟨fun h => ?_, fun h hpin hv => ?_, fun h hpin hv => ?_, fun h hpin => ?_⟩
  · have all : listedRegs list = regs := by
      rw [listedRegs_sixteen, regsEq, if_neg (Bool.eq_false_iff.mp h), List.append_nil]
    refine ⟨_, form.trans (if_neg (Bool.eq_false_iff.mp h)), ?_⟩
    rw [startEq, baseEq, all, show n = regs.length from congrArg List.length all]
    exact blockLoaded_advance nodup noPc hrn unlisted
  · refine ⟨_, (loadsPc h).trans (loadPc_next (pins ▸ hpin) hv), ?_⟩
    rw [startEq, baseEq, blockLoaded_cpsr, show n = (regs ++ [15]).length from congrArg List.length (pcLast h)]
    exact blockLoaded_branchTo _ _ nodup noPc hrn unlisted
  · exact (loadsPc h).trans (loadPc_misaligned (pins ▸ hpin) hv)
  · exact (loadsPc h).trans (loadPc_disLTBit (pins ▸ hpin))

/-- Settles O39: the transfers of the User bank, then the hazard mark. -/
theorem userBankMultiples : Obligations.UserBankMultiples := by
  intro c am rn list list16 s hc hrn hu hy
  refine ⟨fun hl => ?_, fun hl hwf => ?_⟩
  · intro start hok
    have done := loadList_done (setRegAt modeUser) (setReg rn (armReg s rn))
      (fun r v t => ⟨sameBus_setRegAt _ r v t, setRegAt_mem _ r v t⟩) (listedRegs list) start s hok
    refine ⟨_, (exec_ldm2 hc hl hrn hu hy).trans (congrArg (Transfer.thenDo · _) done), ?_⟩
    exact loadsMany_hazard modeUser (nodup_listedRegs list (by decide)) (pc_notMem_listedRegs list le_rfl)
  · intro start words hok
    have done := storeList_done words start s hok
    have wordsEq : storedWords s modeUser false rn (listedRegs list16) = words := storedWords_plain
    refine ⟨_, (exec_stm2 hc hl hrn hu hy).trans (by rw [wordsEq, done]; rfl), ?_⟩
    exact storesMany_putStored s 4 words start rn none true hwf
      ((List.length_map _).trans_le (length_listedRegs_le list16 le_rfl)) (fun b hb => nomatch hb)

/-- Settles O40: as O38 for a list that ends with r15, then the return (60_exceptions.md R585). -/
theorem loadMultipleReturnsFromException : Obligations.LoadMultipleReturnsFromException := by
  intro c am w rn list s hc hrn hw n start base v r
  have nodup : (listedRegs list).Nodup := nodup_listedRegs list (by decide)
  have noPc : (15 : Reg) ∉ listedRegs list := pc_notMem_listedRegs list le_rfl
  have unlisted : w = true → rn ∉ listedRegs list := fun h hm =>
    Bool.false_ne_true ((hw h).symm.trans ((mem_listedRegs (by decide)).mp hm))
  have len : (listedRegs list ++ [15]).length = n := List.length_append
  refine ⟨exec_ldm3_noSpsr hc hrn hw, fun q hq hok => ?_⟩
  have form : r = exceptionReturn v (blockLoaded am w rn (listedRegs list ++ [15]) s) :=
    (exec_ldm3 hc hrn hw (by simp [hq])).trans ((blockLoad_done (by rw [len]; exact hok)).trans (by rw [len]))
  have restored : spsr (blockLoaded am w rn (listedRegs list ++ [15]) s) = some q := spsr_blockLoaded.trans hq
  have ends : ∀ target, LoadsMany s (mode s) (listedRegs list) start rn base target q s.userBankHazard
      (branchTo target (setCpsr q (blockLoaded am w rn (listedRegs list ++ [15]) s))) := fun target => by
    have h := blockLoaded_branchTo (s := s) (am := am) target q nodup noPc hrn unlisted
    rwa [len] at h
  refine ⟨fun ht => ?_, fun ht hv => ?_, fun ht hv => ?_⟩
  · exact ⟨_, form.trans (exceptionReturn_next_thumb restored ht), ends _⟩
  · exact ⟨_, form.trans (exceptionReturn_next_arm restored ht hv), ends _⟩
  · exact form.trans (exceptionReturn_misaligned restored ht hv)

/-- Settles O41: the words are those of `storedWords_eq`, and the base is written once they are stored. -/
theorem storeMultiple : Obligations.StoreMultiple := by
  intro c am w rn list s hc hl hrn hwf regs start base words hok
  have wordsEq : storedWords s (mode s) w rn regs = words := storedWords_eq w
  have done := storeList_done words start s hok
  have form : exec (.stm1 c am w rn list) s = .next (advance 4 (writeBase rn base (putStored words start s))) := by
    refine (exec_stm1 hc hl hrn).trans ?_
    rw [wordsEq, done]
    exact congrArg (fun t => Host.Outcome.next (advance 4 t)) (writeBase_blockBase am w rn _ _ _).symm
  exact ⟨_, form, storesMany_advance 4 hwf
    ((List.length_map _).trans_le (length_listedRegs_le list le_rfl)) fun _ _ => hrn⟩

end

/-! A Data Abort inside a multiple transfer (44_arm_load_store_multiple.md R344; 60_exceptions.md R569, R570): how every
form that loads and every form that stores ends. -/

namespace Sys2Proof.Machine

/-- The result `r` of an instruction that stands in `s` and loads the registers `regs` of mode `m` from `start` on: an
abort at transfer `j` leaves the registers before it loaded but for the base, and the coprocessors `cops`. -/
def LoadStops (s : State) (j : Nat) (r : Result) (m : ModeBits) (regs : List Reg) (start : Word) (base : Reg)
    (cops : List CopPort) : Prop :=
  LoadsAnswered s start j →
  dataAnswer (loadsSeen s start j) (dataAccess s false .word false false (start + BitVec.ofNat 32 (4 * j))) 0 = .abort →
  let isBase := fun q : Reg => base != 15 && bankIndex m q == bankIndex (mode s) base
  Completes r fun t => MemKept s t ∧
    (∀ k, k < j → ∀ h : k < regs.length, isBase regs[k] = false → bankIndex m regs[k] ≠ bankIndex modeAbt 14 →
      regAt t m regs[k] = readMem s .word (start + BitVec.ofNat 32 (4 * k))) ∧
    AbortsData s (((regs.take j).filter fun q => !isBase q).map fun q => (m, q)) s.dbg cops t

/-- The same for a store of `words`: the words before transfer `j` are stored. -/
def StoreStops (s : State) (j : Nat) (r : Result) (words : List Word) (start : Word) (cops : List CopPort) : Prop :=
  ∀ h : j < words.length, StoresAnswered s (words.take j) start →
  dataAnswer (storesSeen s (words.take j) start)
    (dataAccess s false .word true false (start + BitVec.ofNat 32 (4 * j))) words[j] = .abort →
  Completes r fun t => StoredWords s t (words.take j) start ∧ AbortsData s [] s.dbg cops t

section
variable {s : State} {j : Nat} {m : ModeBits} {rn : Reg} {regs : List Reg} {a : Word} {words : List Word}
  {k : State → Result}

/-- A sorted list of registers has no r15 before its last. -/
theorem pc_notMem_take (h : regs.Pairwise (· < ·)) (hj : j < regs.length) : (15 : Reg) ∉ regs.take j := by
  intro hm
  obtain ⟨i, hi, e⟩ := List.mem_take_iff_getElem.mp hm
  have lt := List.pairwise_iff_getElem.mp h i j (by omega) hj (by omega)
  rw [e] at lt
  exact absurd lt (BitVec.not_lt.mpr (BitVec.le_def.mpr (Nat.le_of_lt_succ regs[j].isLt)))

theorem loadList_stops (hp : regs.Pairwise (· < ·)) (hj : j < regs.length) :
    LoadStops s j ((loadList (setRegAt m) (setReg rn (armReg s rn)) regs a s).thenDo k) m regs a rn s.cops :=
  fun hok hab => loadList_abortsData m rn regs (hp.imp BitVec.ne_of_lt) a s j hj
    (fun _ hq e => pc_notMem_take hp hj (e ▸ hq)) hok hab k

theorem storeList_stops (hwf : Memory.wf s.mem = true) (hl : words.length ≤ 2 ^ 30) :
    StoreStops s j ((storeList words a s).thenDo k) words a s.cops :=
  fun hj hok hab => storeList_abortsData words a s hwf hl j hj hok hab k

/-- Loading registers of the current mode, aborts included, is loading registers of that mode. -/
theorem loadList_setReg (restore : State → State) (regs : List Reg) (a : Word) (s : State) :
    loadList setReg restore regs a s = loadList (setRegAt (mode s)) restore regs a s := by
  induction regs generalizing a s with
  | nil => rfl
  | cons r rs ih =>
    unfold loadList
    simp only [ih, mode_setReg, mode_latched]
    rfl

theorem loadList_setReg_stops (hp : regs.Pairwise (· < ·)) (hj : j < regs.length) :
    LoadStops s j ((loadList setReg (setReg rn (armReg s rn)) regs a s).thenDo k) (mode s) regs a rn s.cops := by
  rw [loadList_setReg]
  exact loadList_stops hp hj

theorem blockLoad_stops {am : BlockMode} {w : Bool} {k : Word → State → Result} (hp : regs.Pairwise (· < ·))
    (hj : j < regs.length) :
    LoadStops s j (blockLoad am w rn regs s k) (mode s) regs (blockStart am (armReg s rn) regs.length) rn s.cops :=
  loadList_setReg_stops hp hj

end

section
variable {n : Nat} {list : BitVec n}

/-- Appending a register above a list's keeps it sorted. -/
theorem pairwise_append_reg {regs : List Reg} (h : regs.Pairwise (· < ·)) {r : Reg} (hr : ∀ q ∈ regs, q < r) :
    (regs ++ [r]).Pairwise (· < ·) :=
  List.pairwise_append.mpr ⟨h, List.pairwise_singleton _ _, fun q hq _ hm => List.mem_singleton.mp hm ▸ hr q hq⟩

theorem pairwise_listedRegs_pc (hn : n ≤ 15) : (listedRegs list ++ [15]).Pairwise (· < ·) :=
  pairwise_append_reg (pairwise_listedRegs list (by omega)) fun _ hq =>
    BitVec.lt_def.mpr ((BitVec.lt_of_getLsbD ((mem_listedRegs (by omega)).mp hq)).trans_le hn)

/-- The pair of an LDRD is sorted: its first register is even (R307). -/
theorem lt_succ_of_even {rd : Reg} (h : flag 0 rd = false) : rd < rd + 1 := by
  revert rd
  decide

theorem ne_pc_of_mem_listedRegs (hn : n ≤ 15) {q : Reg} (hq : q ∈ listedRegs list) : q ≠ 15 :=
  fun e => pc_notMem_listedRegs list hn (e ▸ hq)

end

/-! Coprocessor transfers (46_arm_coprocessor.md R405, R406): LDC moves words past the registers, and a coprocessor's
port is nothing to the memory system. -/

section
variable {s t : State} {a : Word} {n j : Nat}

theorem SameBus.loadsAnswered (h : SameBus s t) (hm : t.mem = s.mem) (hok : LoadsAnswered s a n) :
    LoadsAnswered t a n := fun k hk => by
  rw [h.access, (h.loadsSeen hm a k).answer _ 0 0 (by simpa [dataAccess] using hm)]
  exact hok k hk

theorem SameBus.storesAnswered {words : List Word} (h : SameBus s t) (hok : StoresAnswered s words a) :
    StoresAnswered t words a := fun k hk => by
  rw [h.access, (h.storesSeen (words.take k) a).answer _ words[k] words[k] (by simp [dataAccess])]
  exact hok k hk

theorem loadsSeen_latchOnly (s : State) (a : Word) (k : Nat) : ∃ x, loadsSeen s a k = { s with chainOut := x } := by
  induction k generalizing s a with
  | zero => exact ⟨s.chainOut, rfl⟩
  | succ k ih => exact ih _ _

theorem latchKept_loadsSeen (s : State) (a : Word) (k : Nat) : LatchKept s (loadsSeen s a k) := by
  induction k generalizing s a with
  | zero => exact .of_eq rfl
  | succ k ih => exact (latchKept_latched _ rfl _ s).trans (ih _ _) rfl rfl

theorem latchedAbort_latchOnly (acc : Access) (v : Word) (s : State) :
    ∃ x, latchedAbort acc v s = { s with chainOut := x } := by
  unfold latchedAbort
  split <;> exact ⟨_, rfl⟩

/-- Loads that put nothing in a register only show on the bus. -/
theorem putLoaded_none (regs : List Reg) (a : Word) (s : State) :
    putLoaded (fun _ _ t => t) regs a s = loadsSeen s a regs.length := by
  induction regs generalizing a s with
  | nil => rfl
  | cons r rs ih => exact ih _ _

/-- A Data Abort before which an instruction wrote nothing but the CHAINOUT latch and the coprocessors. -/
theorem dataAbort_latchOnly {u : State} {cops : List CopPort} (hu : ∃ x, u = { s with chainOut := x, cops := cops })
    (hl : LatchKept s u) : MemKept s (dataAbort u) ∧ AbortsData s [] s.dbg cops (dataAbort u) := by
  obtain ⟨x, rfl⟩ := hu
  exact ⟨memKept_of (by simp [dataAbort]) (by simp [dataAbort]),
    abortsData_dataAbort (s := s) (u := { s with chainOut := x, cops := cops }) (fun _ _ _ _ => rfl) rfl rfl
      (fun _ => rfl) ⟨rfl, rfl, rfl, rfl, rfl⟩ hl⟩

/-- The words of an LDC are those of its answered transfers, then those of the rest. -/
theorem ldcWords_add (h : LoadsAnswered s a j) : ldcWords s (j + n) a =
    (List.range j).map (fun k => readMem s .word (a + BitVec.ofNat 32 (4 * k))) ++
      ldcWords (loadsSeen s a j) n (a + BitVec.ofNat 32 (4 * j)) := by
  induction j generalizing s a with
  | zero => simp [loadsSeen]
  | succ j ih =>
    have first := h 0 (by omega)
    simp only [Nat.mul_zero, BitVec.add_zero, loadsSeen] at first
    rw [dataAnswer_read s false .word false a 0 (readMem s .word a)] at first
    have rest := ih (s := latched (dataAccess s false .word false false a) (readMem s .word a) s) (a := a + 4)
      (h.tail (.refl _) rfl)
    rw [Nat.add_right_comm, ldcWords]
    simp only [first]
    rw [rest, List.range_succ_eq_map, List.map_cons, List.map_map, List.cons_append]
    simp only [Nat.mul_zero, BitVec.add_zero, ofNat_four_succ]
    simp only [Function.comp_def, Nat.succ_eq_add_one, ofNat_four_succ]
    rfl

/-- An LDC that aborts at transfer `j` sends the words before it (R405). -/
theorem ldcWords_of_abort (h : LoadsAnswered s a j) (hj : j < n)
    (hab : dataAnswer (loadsSeen s a j) (dataAccess s false .word false false (a + BitVec.ofNat 32 (4 * j))) 0 =
      .abort) :
    ldcWords s n a = (List.range j).map fun k => readMem s .word (a + BitVec.ofNat 32 (4 * k)) := by
  obtain ⟨m, rfl⟩ := Nat.exists_eq_add_of_lt hj
  have ends : dataAnswer (loadsSeen s a j)
      (dataAccess (loadsSeen s a j) false .word false false (a + BitVec.ofNat 32 (4 * j)))
      (readMem (loadsSeen s a j) .word (a + BitVec.ofNat 32 (4 * j))) = .abort := by
    rw [dataAnswer_read _ false .word false _ _ 0]
    simpa [dataAccess, privileged] using hab
  rw [add_assoc, ldcWords_add h, ldcWords]
  simp only [ends, List.append_nil]

variable {cp : BitVec 4} {msgs : List CopMessage} {k : State → Result}

theorem AbortsData.of_copDone {written : List (ModeBits × Reg)} {d : DebugUnit} {cops : List CopPort}
    (h : AbortsData (copDone cp msgs s) written d cops t) : AbortsData s written d cops t :=
  ⟨h.linked, h.saved, h.cpsr, h.pc, h.regs, h.spsrs, ⟨h.outside.pins, h.outside.lines, h.outside.accessRules,
    h.outside.inputs, h.outside.tick⟩, h.dbg, h.latch, h.cops⟩

theorem ldc_stops (hj : j < n) :
    LoadStops s j ((loadList (fun _ _ t => t) id (List.replicate n 0) a (copDone cp msgs s)).thenDo k) (mode s) [] a 15
      (copDone cp msgs s).cops := by
  intro hok hab isBase
  have bus := sameBus_copDone cp msgs s
  have aborts : dataAnswer (loadsSeen (copDone cp msgs s) a j)
      (dataAccess (copDone cp msgs s) false .word false false (a + BitVec.ofNat 32 (4 * j))) 0 = .abort := by
    rw [bus.access, (bus.loadsSeen rfl a j).answer _ 0 0 (by simp [dataAccess])]
    exact hab
  obtain ⟨acc, hf, e⟩ := loadList_abort (fun _ _ t => t) id (fun _ _ t => ⟨.refl t, rfl⟩) (List.replicate n 0) a
    (copDone cp msgs s) j (by simpa using hj) (bus.loadsAnswered rfl hok) aborts
  have len : ((List.replicate n (0 : Reg)).take j).length = j := by simp; omega
  rw [e, putLoaded_none, len]
  obtain ⟨x, hx⟩ := loadsSeen_latchOnly (copDone cp msgs s) a j
  obtain ⟨y, hy⟩ := latchedAbort_latchOnly acc 0 (loadsSeen (copDone cp msgs s) a j)
  have latch : LatchKept (copDone cp msgs s) (latchedAbort acc 0 (loadsSeen (copDone cp msgs s) a j)) :=
    (latchKept_loadsSeen _ a j).trans (latchKept_latchedAbort acc hf 0 _) (by simp [hx]) (by simp [hx])
  obtain ⟨memory, aborted⟩ := dataAbort_latchOnly (s := s) (cops := (copDone cp msgs s).cops)
    ⟨y, by rw [hy, hx]; rfl⟩ latch
  exact ⟨_, rfl, memory, fun _ _ h => absurd h (Nat.not_lt_zero _), by simpa using aborted⟩

theorem stc_stops {words : List Word} (hwf : Memory.wf s.mem = true) (hl : words.length ≤ 2 ^ 30) :
    StoreStops s j ((storeList words a (copDone cp msgs s)).thenDo k) words a (copDone cp msgs s).cops := by
  intro hj hok hab
  have bus := sameBus_copDone cp msgs s
  have aborts : dataAnswer (storesSeen (copDone cp msgs s) (words.take j) a)
      (dataAccess (copDone cp msgs s) false .word true false (a + BitVec.ofNat 32 (4 * j))) words[j] = .abort := by
    rw [bus.access, (bus.storesSeen (words.take j) a).answer _ words[j] words[j] (by simp [dataAccess])]
    exact hab
  exact (storeList_stops (s := copDone cp msgs s) hwf hl hj (bus.storesAnswered hok) aborts).mono
    fun _ ⟨stored, aborted⟩ => ⟨⟨stored.stored, stored.memory⟩, aborted.of_copDone⟩

end

section
variable {s : State} {p u w : Bool} {rn : Reg} {cp : BitVec 4} {offset8 : BitVec 8} {i : Instr} {first second : Word}
  {more : List Word}

theorem coprocessor_form (h : (p || u || w) = true) : ¬ (!p && !u && !w) = true := by
  revert p u w
  decide

theorem ldcOp_accepted (hcp : cp ≠ 14) (hform : (p || u || w) = true) (hrn : w = true → rn ≠ 15)
    (ha : copAnswer s cp = .accept first second more) :
    ldcOp p u w rn cp offset8 i s =
      (loadList (fun _ _ t => t) id (List.replicate (more.length + 1) 0) (start5 p u (armReg s rn) offset8)
        (copDone cp [message s i (ldcWords s (more.length + 1) (start5 p u (armReg s rn) offset8))] s)).thenDo fun t =>
          .next (advance 4 (base5 u w rn offset8 s t)) := by
  rw [ldcOp, if_neg hcp, if_neg (coprocessor_form hform), copOp_accept ha]
  exact if_neg fun h => hrn h.2 h.1

theorem stcOp_accepted (hcp : cp ≠ 14) (hform : (p || u || w) = true) (hrn : w = true → rn ≠ 15)
    (ha : copAnswer s cp = .accept first second more) :
    stcOp p u w rn cp offset8 i s =
      (storeList (first :: more) (start5 p u (armReg s rn) offset8) (copDone cp [message s i []] s)).thenDo fun t =>
        .next (advance 4 (base5 u w rn offset8 s t)) := by
  rw [stcOp, if_neg hcp, if_neg (coprocessor_form hform), copOp_accept ha]
  exact if_neg fun h => hrn h.2 h.1

/-- The start address of addressing mode 5 (R407). -/
theorem start5_eq (p u : Bool) (b : Word) (offset8 : BitVec 8) : start5 p u b offset8 =
    if p then (if u then b + 4 * zext offset8 else b - 4 * zext offset8) else b := by
  rw [start5, offsetAddr, offset5, shiftLeft_two_eq]

end

/-! The Thumb forms (48_thumb_branch_load_store.md R510 to R513) once they name a register. -/

section
variable {s : State} {r : Bool} {rb : LowReg} {list : BitVec 8}

theorem thumbReg_of_ne_pc {q : Reg} (h : q ≠ 15) : thumbReg s q = regAt s (mode s) q := if_neg h

theorem armReg_of_ne_pc {q : Reg} (h : q ≠ 15) : armReg s q = regAt s (mode s) q := if_neg h

theorem exec_tPop (h : listedRegs list ++ (if r then [15] else []) ≠ []) :
    let regs := listedRegs list ++ (if r then [15] else [])
    let sp := regAt s (mode s) 13
    exec (.tPop r list) s = (loadList setReg (setReg 13 (armReg s 13)) regs sp s).thenDo fun t =>
      let t' := setReg 13 (sp + BitVec.ofNat 32 (4 * regs.length)) t
      if r then loadPc (readMem s .word (sp + BitVec.ofNat 32 (4 * (regs.length - 1)))) t' else .next (advance 2 t') :=
  if_neg h

theorem ne_pc_of_mem_pushRegs {q : Reg} (h : q ∈ pushRegs r list) : q ≠ 15 := by
  obtain low | link := List.mem_append.mp h
  · exact ne_pc_of_mem_listedRegs (by decide) low
  · cases r with
    | false => cases link
    | true => exact List.mem_singleton.mp link ▸ (by decide)

theorem length_pushRegs_le (r : Bool) (list : BitVec 8) : (pushRegs r list).length ≤ 2 ^ 30 := by
  have low := length_listedRegs list
  have link : (if r then [14] else [] : List Reg).length ≤ 1 := by cases r <;> decide
  rw [pushRegs, List.length_append]
  omega

theorem exec_tPush (h : pushRegs r list ≠ []) :
    let start := regAt s (mode s) 13 - BitVec.ofNat 32 (4 * (pushRegs r list).length)
    exec (.tPush r list) s = thumbBlockStore 13 start start ((pushRegs r list).map fun q => regAt s (mode s) q) s := by
  intro start
  refine (if_neg h).trans (congrArg (thumbBlockStore 13 start start · s) ?_)
  exact List.map_congr_left fun q hq => thumbReg_of_ne_pc (ne_pc_of_mem_pushRegs hq)

theorem exec_tLdmia (hl : list ≠ 0) (hb : list.getLsbD rb.toNat = false) :
    exec (.tLdmia rb list) s =
      (loadList setReg (setReg (lowReg rb) (armReg s (lowReg rb))) (listedRegs list) (armReg s (lowReg rb)) s).thenDo
        fun t => .next (advance 2
          (setReg (lowReg rb) (armReg s (lowReg rb) + BitVec.ofNat 32 (4 * (listedRegs list).length)) t)) := by
  rw [← low_eq_armReg]
  exact (if_neg hl).trans (if_neg (Bool.eq_false_iff.mp hb))

/-- The words of STMIA; a listed base that is not the lowest is the free value of log entry 21. -/
theorem exec_tStmia (hl : list ≠ 0) :
    exec (.tStmia rb list) s =
      thumbBlockStore (lowReg rb) (armReg s (lowReg rb))
        (armReg s (lowReg rb) + BitVec.ofNat 32 (4 * (listedRegs list).length))
        ((listedRegs list).map fun q => if q = lowReg rb ∧ (listedRegs list).head? ≠ some (lowReg rb) then
          Config.storedBase s.tick else armReg s q) s := by
  rw [← low_eq_armReg]
  refine (if_neg hl).trans (congrArg (thumbBlockStore _ _ _ · s) (List.map_congr_left fun q hq => ?_))
  have hne := ne_pc_of_mem_listedRegs (by decide) hq
  rw [thumbReg_of_ne_pc hne, armReg_of_ne_pc hne]
  simp

end

end Sys2Proof.Machine

section
open Sys2Proof Sys2Proof.Machine

/-- Settles O42: every form is a sequence of loads (`LoadStops`) or of stores (`StoreStops`) once its checks pass. -/
theorem abortedMultipleKeepsWhatCameBefore : Obligations.AbortedMultipleKeepsWhatCameBefore := by
  intro c am p u n w r idx off3 rn rd rb list list15 list8 crd cp offset8 first second more j s hwf at_ loads stores b
    a3 regs regs15 low pushed popped sp x start after
  have loadsOf : ∀ {i r m regs start base cops}, exec i s = r → LoadStops s j r m regs start base cops →
      loads i m regs start base cops := by
    rintro i _ m regs start base cops rfl h
    exact h
  have storesOf : ∀ {i r words start cops}, exec i s = r → StoreStops s j r words start cops →
      stores i words start cops := by
    rintro i _ words start cops rfl h
    exact h
  have sorted : regs.Pairwise (· < ·) := pairwise_listedRegs list le_rfl
  have sorted15 : regs15.Pairwise (· < ·) := pairwise_listedRegs list15 (by decide)
  have sortedLow : low.Pairwise (· < ·) := pairwise_listedRegs list8 (by decide)
  refine ⟨fun hc hrn => ⟨fun hl => ⟨fun hw hj => ?_, ?_, fun hu hy => ?_⟩, fun hl hu hy hj => ?_, fun hw hq hj => ?_⟩,
    fun hc hz h ha => ⟨fun hp hj => ?_, fun hp => ?_⟩, fun hc hcp hform hrn hlen hacc => ⟨fun hj => ?_, ?_⟩,
    fun hj => ?_, ?_, fun hb hj => ?_, fun hl => ?_⟩
  · exact loadsOf (exec_ldm1 hc hl hrn hw) (blockLoad_stops sorted hj)
  · exact storesOf (exec_stm1 hc hl hrn)
      (storeList_stops hwf ((length_storedWords w).trans_le (length_listedRegs_le list le_rfl)))
  · exact storesOf (exec_stm2 hc hl hrn hu hy)
      (storeList_stops hwf ((length_storedWords false).trans_le (length_listedRegs_le list le_rfl)))
  · exact loadsOf (exec_ldm2 hc hl hrn hu hy) (loadList_stops sorted15 hj)
  · have len : (regs15 ++ [15]).length = regs15.length + 1 := List.length_append
    have stops := blockLoad_stops (s := s) (am := am) (w := w) (rn := rn) (k := exceptionReturn)
      (pairwise_listedRegs_pc (list := list15) le_rfl) (len.symm ▸ hj)
    rw [len] at stops
    exact loadsOf (exec_ldm3 hc hrn hw hq) stops
  · have pair : [rd, rd + 1].Pairwise (· < ·) := by
      obtain ⟨hpair, _⟩ := pairAllowed_iff.mp hp
      exact List.pairwise_pair.mpr (lt_succ_of_even (Bool.eq_false_iff.mpr fun odd => hpair (.inl odd)))
    refine loadsOf ((exec_ldrd hc hz h ha).trans (if_neg (by simp [hp]))) ?_
    exact loadList_setReg_stops pair hj
  · refine storesOf ((exec_strd hc hz h ha).trans (if_neg (by simp [hp]))) ?_
    exact storeList_stops hwf (by simp)
  · have startEq : Machine.start5 p u b offset8 = start := start5_eq p u b offset8
    have stops : ∀ i, LoadStops s j (ldcOp p u w rn cp offset8 i s) (mode s) [] start 15
        (after i ((List.range j).map fun k => readMem s .word (at_ start k))) := fun i hok hab => by
      rw [ldcOp_accepted hcp hform hrn hacc, startEq, ldcWords_of_abort hok hj hab]
      exact ldc_stops hj hok hab
    simp only [List.forall_mem_cons, List.not_mem_nil, false_implies, implies_true, and_true]
    exact ⟨loadsOf (whenPassed_of_passed hc _) (stops _), loadsOf rfl (stops _)⟩
  · have startEq : Machine.start5 p u b offset8 = start := start5_eq p u b offset8
    have stops : ∀ i, StoreStops s j (stcOp p u w rn cp offset8 i s) (first :: more) start (after i []) := fun i => by
      rw [stcOp_accepted hcp hform hrn hacc, startEq]
      exact stc_stops hwf hlen
    simp only [List.forall_mem_cons, List.not_mem_nil, false_implies, implies_true, and_true]
    exact ⟨storesOf (whenPassed_of_passed hc _) (stops _), storesOf rfl (stops _)⟩
  · have sortedPopped : popped.Pairwise (· < ·) := by
      cases r with
      | false =>
        have all : popped = low := List.append_nil low
        exact all ▸ sortedLow
      | true => exact pairwise_listedRegs_pc (by decide)
    exact loadsOf (exec_tPop (List.ne_nil_of_length_pos (Nat.zero_lt_of_lt hj))) (loadList_setReg_stops sortedPopped hj)
  · intro hj
    have named : pushRegs r list8 ≠ [] :=
      List.ne_nil_of_length_pos ((Nat.zero_lt_of_lt hj).trans_eq (List.length_map _))
    exact storesOf (exec_tPush named)
      (storeList_stops hwf ((List.length_map _).trans_le (length_pushRegs_le r list8))) hj
  · have hl : list8 ≠ 0 := by
      rintro rfl
      exact absurd hj (Nat.not_lt_zero j)
    exact loadsOf (exec_tLdmia hl hb) (loadList_setReg_stops sortedLow hj)
  · exact storesOf (exec_tStmia hl)
      (storeList_stops hwf ((List.length_map _).trans_le (length_listedRegs_le list8 (by decide))))

end

/-! Status registers (45_arm_status_swi_bkpt.md R371 to R373): the bits that a field mask selects, MRS and MSR once
their checks pass, and how MSR ends. -/

namespace Sys2Proof.Machine

/-! The bits MSR writes. -/

section
variable {k : Nat}

theorem flag_ite_zero (b : Bool) (w : Word) : flag k (if b then w else 0) = (b && flag k w) := by
  cases b with
  | false => exact BitVec.getLsbD_zero
  | true => rfl

/-- The four bytes of a word, as masks. -/
theorem flag_byteMasks : ∀ k, k < 32 → flag k (0x000000FF : Word) = decide (k / 8 = 0) ∧
    flag k (0x0000FF00 : Word) = decide (k / 8 = 1) ∧ flag k (0x00FF0000 : Word) = decide (k / 8 = 2) ∧
    flag k (0xFF000000 : Word) = decide (k / 8 = 3) := by decide

/-- R372: bit `i` of the field mask selects byte `i`. -/
theorem flag_fieldBits (mask : BitVec 4) (hk : k < 32) : flag k (fieldBits mask) = flag (k / 8) mask := by
  obtain ⟨byte0, byte1, byte2, byte3⟩ := flag_byteMasks k hk
  have selected : flag k (fieldBits mask) = (mask.getLsbD 0 && decide (k / 8 = 0) ||
      mask.getLsbD 1 && decide (k / 8 = 1) || mask.getLsbD 2 && decide (k / 8 = 2) ||
      mask.getLsbD 3 && decide (k / 8 = 3)) := by
    rw [← byte0, ← byte1, ← byte2, ← byte3, ← flag_ite_zero, ← flag_ite_zero, ← flag_ite_zero, ← flag_ite_zero]
    simp only [fieldBits, flag, BitVec.getLsbD_or]
  obtain h | h | h | h : k / 8 = 0 ∨ k / 8 = 1 ∨ k / 8 = 2 ∨ k / 8 = 3 := by omega
  all_goals
    rw [selected, h]
    simp [flag]

theorem flag_mergePsr (old operand bits : Word) (hk : k < 32) :
    flag k (mergePsr old operand bits) = if flag k bits then flag k operand else flag k old := by
  have merged : flag k (mergePsr old operand bits) =
      (flag k old && !flag k bits || flag k operand && flag k bits) := by
    simp [mergePsr, flag, hk]
  rw [merged]
  cases flag k bits <;> simp

/-- A merge is known by its bits. -/
theorem eq_mergePsr {old operand bits new : Word}
    (h : ∀ k, k < 32 → flag k new = if flag k bits then flag k operand else flag k old) :
    new = mergePsr old operand bits :=
  eq_of_flag fun k hk => (h k hk).trans (flag_mergePsr old operand bits hk).symm

/-- The bits of the CPSR that MSR writes: in User mode no more than the flags byte. -/
def cpsrBits (s : State) (mask : BitVec 4) : Word :=
  if privileged s then fieldBits mask else fieldBits mask &&& 0xFF000000

theorem flag_cpsrBits (s : State) (mask : BitVec 4) (hk : k < 32) :
    flag k (cpsrBits s mask) = (flag (k / 8) mask && (mode s != modeUser || decide (24 ≤ k))) := by
  change flag k (if mode s != modeUser then _ else _) = _
  cases mode s != modeUser with
  | true => simpa using flag_fieldBits mask hk
  | false =>
    obtain ⟨_, _, _, flagsByte⟩ := flag_byteMasks k hk
    have top : k / 8 = 3 ↔ 24 ≤ k := by omega
    have both : flag k (fieldBits mask &&& 0xFF000000) = (flag k (fieldBits mask) && flag k (0xFF000000 : Word)) :=
      BitVec.getLsbD_and
    calc flag k (fieldBits mask &&& 0xFF000000)
      _ = (flag (k / 8) mask && decide (k / 8 = 3)) := by rw [both, flag_fieldBits mask hk, flagsByte]
      _ = (flag (k / 8) mask && (false || decide (24 ≤ k))) := by rw [decide_eq_decide.mpr top, Bool.false_or]

end

/-! Each form once its checks pass. -/

section
variable {c : Cond} {r : Bool} {mask : BitVec 4} {operand : Word} {s : State}

theorem exec_mrs {rd : Reg} (hc : condPassed c s.cpsr = true) (hrd : rd ≠ 15) : exec (.mrs c r 15 rd 0 0) s =
    if r then (spsr s).elim (.refused .noSpsr) fun v => .next (advance 4 (setReg rd v s))
    else .next (advance 4 (setReg rd s.cpsr s)) := by
  refine (whenPassed_of_passed hc _).trans ?_
  rw [anyPc_singleton hrd]
  cases spsr s <;> rfl

theorem exec_msrReg {rm : Reg} (hc : condPassed c s.cpsr = true) (hrm : rm ≠ 15) :
    exec (.msrReg c r mask 15 0 rm) s = msrOp r mask (armReg s rm) s := by
  refine (whenPassed_of_passed hc _).trans ?_
  rw [anyPc_singleton hrm]
  rfl

theorem exec_msrImm {rot : BitVec 4} {imm8 : BitVec 8} (hc : condPassed c s.cpsr = true) :
    exec (.msrImm c r mask 15 rot imm8) s = msrOp r mask ((zext imm8).rotateRight (2 * rot.toNat)) s :=
  whenPassed_of_passed hc _

theorem msrOp_noFields : msrOp r 0 operand s = .refused .msrNoFields := rfl

theorem msrOp_noSpsr (hm : mask ≠ 0) (h : spsr s = none) : msrOp true mask operand s = .refused .noSpsr := by
  rw [msrOp, if_neg hm, h]
  rfl

theorem msrOp_spsr (hm : mask ≠ 0) {q : Word} (h : spsr s = some q) : msrOp true mask operand s =
    .next (advance 4 (setSpsrAt (mode s) (mergePsr q operand (fieldBits mask)) s)) := by
  rw [msrOp, if_neg hm, h]
  rfl

theorem msrOp_cpsr (hm : mask ≠ 0) : msrOp false mask operand s =
    if psrT (mergePsr s.cpsr operand (cpsrBits s mask)) = psrT s.cpsr then
      .next (advance 4 (setCpsr (mergePsr s.cpsr operand (cpsrBits s mask)) s))
    else .refused .msrChangesT := by
  rw [msrOp, if_neg hm]
  rfl

/-! How MSR ends, the status register it makes given by its bits. -/

/-- `t` is `s` after an instruction that writes `v` to the SPSR of the current mode, and nothing else. -/
def WritesSpsr (s : State) (v : Word) (t : State) : Prop :=
  spsrAt t (mode s) = some v ∧ (∀ m, m ≠ mode s → spsrAt t m = spsrAt s m) ∧ RegsKept s t [] ∧ t.cpsr = s.cpsr ∧
    t.pc = s.pc + 4 ∧ OutsideKept s t ∧ t.dbg = s.dbg ∧ t.chainOut = s.chainOut ∧ t.cops = s.cops ∧ MemKept s t

theorem writesSpsr_setSpsrAt {q : Word} (h : spsr s = some q) (v : Word) :
    WritesSpsr s v (advance 4 (setSpsrAt (mode s) v s)) := by
  have here : spsrAt (setSpsrAt (mode s) v s) (mode s) = some v :=
    spsrAt_setSpsrAt_same (mode s) v s (Option.isSome_of_eq_some h)
  have elsewhere : ∀ m, m ≠ mode s → spsrAt (setSpsrAt (mode s) v s) m = spsrAt s m := fun m hm =>
    spsrAt_setSpsrAt_other (mode s) m v s hm
  have outside : OutsideKept s (advance 4 (setSpsrAt (mode s) v s)) := by constructor <;> simp
  exact ⟨here, elsewhere, regsKept_of (by simp) [], by simp, by simp, outside, by simp, by simp, by simp,
    memKept_of (by simp) (by simp)⟩

theorem msrOp_writesSpsr (hm : mask ≠ 0) {q new : Word} (hq : spsr s = some q)
    (hnew : ∀ k, k < 32 → flag k new = if flag (k / 8) mask then flag k operand else flag k q) :
    Completes (msrOp true mask operand s) (WritesSpsr s new) := by
  have merged : new = mergePsr q operand (fieldBits mask) := eq_mergePsr fun k hk => by
    rw [hnew k hk, flag_fieldBits mask hk]
  subst merged
  exact ⟨_, msrOp_spsr hm hq, writesSpsr_setSpsrAt hq _⟩

theorem msrOp_writesCpsr (hm : mask ≠ 0) {new : Word}
    (hnew : ∀ k, k < 32 → flag k new =
      if flag (k / 8) mask && (mode s != modeUser || decide (24 ≤ k)) then flag k operand else flag k s.cpsr) :
    (flag 5 new = flag 5 s.cpsr → Completes (msrOp false mask operand s) (WritesFlags s 4 new)) ∧
      (flag 5 new ≠ flag 5 s.cpsr → msrOp false mask operand s = .refused .msrChangesT) := by
  have merged : new = mergePsr s.cpsr operand (cpsrBits s mask) := eq_mergePsr fun k hk => by
    rw [hnew k hk, flag_cpsrBits s mask hk]
  subst merged
  rw [msrOp_cpsr hm]
  exact ⟨fun kept => ⟨_, if_pos kept, writesFlags_setCpsr s 4 _⟩, fun changed => if_neg changed⟩

end

end Sys2Proof.Machine

section
open Sys2Proof Sys2Proof.Machine

/-- Settles O43: r15 stops at the register check, and `exec_mrs` says what the other registers get. -/
theorem mrsReadsAStatusRegister : Obligations.MrsReadsAStatusRegister := by
  intro c r rd s hc
  refine ⟨refused_second hc (by decide) (by decide), fun hrd => ⟨?_, fun q hq => ?_, fun noSpsr => ?_⟩⟩
  · exact ⟨_, exec_mrs hc hrd, writesReg_setReg s 4 rd s.cpsr hrd⟩
  · refine ⟨_, (exec_mrs hc hrd).trans ?_, writesReg_setReg s 4 rd q hrd⟩
    rw [hq]
    rfl
  · rw [exec_mrs hc hrd, spsr_eq_none noSpsr]
    rfl

/-- Settles O44: both forms are `msrOp` of their operand, which ends as `msrOp_writesCpsr` and `msrOp_writesSpsr`
say. -/
theorem msrWritesTheSelectedBytes : Obligations.MsrWritesTheSelectedBytes := by
  intro c mask rot imm8 rm s hc hrm imm selected
  have reg : ∀ r mask, exec (.msrReg c r mask 15 0 rm) s = msrOp r mask (armReg s rm) s := fun _ _ => exec_msrReg hc hrm
  have immediate : ∀ r mask, exec (.msrImm c r mask 15 rot imm8) s = msrOp r mask imm s := fun _ _ => exec_msrImm hc
  simp only [reg, immediate, List.forall_mem_cons, List.not_mem_nil, false_implies, implies_true, and_true]
  refine ⟨?_, fun hm => ⟨fun _ => msrOp_writesCpsr hm, fun _ => msrOp_writesCpsr hm⟩,
    fun hm => ⟨⟨msrOp_noSpsr hm, fun _ _ => msrOp_writesSpsr hm⟩, msrOp_noSpsr hm, fun _ _ => msrOp_writesSpsr hm⟩⟩
  rintro rfl r
  exact ⟨msrOp_noFields, msrOp_noFields⟩

end

/-! The coprocessor interface (46_arm_coprocessor.md R391 to R398): the ports, and the answer that every coprocessor
instruction asks for once its checks pass. -/

namespace Sys2Proof.Machine

/-! The ports: the first of a coprocessor's number answers for it. -/

section
variable {cp : BitVec 4} {received : List CopMessage} {before ports after : List CopPort} {p : CopPort} {s : State}

/-- Ports of other numbers are passed over. -/
theorem advancePort_append (h : ∀ q ∈ before, q.num ≠ cp) :
    advancePort cp received (before ++ ports) = before ++ advancePort cp received ports := by
  induction before with
  | nil => rfl
  | cons q qs ih =>
    obtain ⟨other, others⟩ := List.forall_mem_cons.mp h
    rw [List.cons_append, advancePort, if_neg other, ih others, List.cons_append]

theorem advancePort_cons_same (h : p.num = cp) :
    advancePort cp received (p :: after) = p.advance received :: after :=
  if_pos h

theorem advancePort_unattached (h : ∀ q ∈ ports, q.num ≠ cp) : advancePort cp received ports = ports := by
  have passed := advancePort_append (received := received) (ports := []) h
  rwa [advancePort, List.append_nil] at passed

theorem find?_port_eq_none (h : ∀ q ∈ ports, q.num ≠ cp) : ports.find? (fun q => q.num == cp) = none :=
  List.find?_eq_none.mpr fun q hq e => h q hq (beq_iff_eq.mp e)

theorem copAnswer_unattached (h : ∀ q ∈ s.cops, q.num ≠ cp) : copAnswer s cp = .absent := by
  rw [copAnswer, find?_port_eq_none h]

theorem copAnswer_attached (hs : s.cops = before ++ p :: after) (h : ∀ q ∈ before, q.num ≠ cp) (hp : p.num = cp) :
    copAnswer s cp = p.answers.headD p.rest := by
  have found : s.cops.find? (fun q => q.num == cp) = some p := by
    rw [hs, List.find?_append, find?_port_eq_none h, Option.none_or]
    exact List.find?_cons_of_pos (beq_iff_eq.mpr hp)
  rw [copAnswer, found]

end

section
variable {cp : BitVec 4} {s : State} {k : Word → Word → List Word → Result}

theorem copOp_absent (h : copAnswer s cp = .absent) : copOp cp s k = .next (undefinedTrap 4 (copDone cp [] s)) := by
  rw [copOp, h]

theorem copOp_wait (h : copAnswer s cp = .wait) : copOp cp s k = .next (copDone cp [] s) := by
  rw [copOp, h]

end

/-- The result `r` of an instruction that stands in `s` is what the answer of coprocessor `cp` makes of it. -/
def AsksCoprocessor (cp : BitVec 4) (s : State) (r : Result) : Prop :=
  ∃ k, r = copOp cp s k

section
variable {c : Cond} {cp : BitVec 4} {s : State} {r : Result}

theorem AsksCoprocessor.whenPassed (hc : condPassed c s.cpsr = true) (h : AsksCoprocessor cp s r) :
    AsksCoprocessor cp s (whenPassed c s r) :=
  (whenPassed_of_passed hc r).symm ▸ h

/-- Coprocessor 14 is apart. -/
theorem asksCoprocessor_copOp (hcp : cp ≠ 14) {r14 : Result} (k : Word → Word → List Word → Result) :
    AsksCoprocessor cp s (if cp = 14 then r14 else copOp cp s k) :=
  ⟨k, if_neg hcp⟩

/-- Every coprocessor instruction for a coprocessor other than 14, the forms of U24 among them (log entry 51), does what
the coprocessor answers. -/
theorem exec_asksCoprocessor {p u n w : Bool} {rn rd : Reg} {op1 crn crd crm opc : BitVec 4} {op1' op2 : BitVec 3}
    {offset8 : BitVec 8} (hc : condPassed c s.cpsr = true) (hcp : cp ≠ 14) (hform : (p || u || w) = true) :
    ∀ i ∈ [Instr.cdp c op1 crn crd cp op2 crm, .cdp2 op1 crn crd cp op2 crm, .mcr c op1' crn rd cp op2 crm,
        .mcr2 op1' crn rd cp op2 crm, .mrc c op1' crn rd cp op2 crm, .mrc2 op1' crn rd cp op2 crm,
        .mcrr c rn rd cp opc crm, .mrrc c rn rd cp opc crm, .ldc c p u n w rn crd cp offset8,
        .ldc2 p u n w rn crd cp offset8, .stc c p u n w rn crd cp offset8, .stc2 p u n w rn crd cp offset8],
      AsksCoprocessor cp s (exec i s) := by
  have ldc : ∀ i, AsksCoprocessor cp s (ldcOp p u w rn cp offset8 i s) := fun _ =>
    ⟨_, (if_neg hcp).trans (if_neg (coprocessor_form hform))⟩
  have stc : ∀ i, AsksCoprocessor cp s (stcOp p u w rn cp offset8 i s) := fun _ =>
    ⟨_, (if_neg hcp).trans (if_neg (coprocessor_form hform))⟩
  simp only [List.forall_mem_cons, List.not_mem_nil, false_implies, implies_true, and_true]
  refine ⟨?cdp, ?cdp2, ?mcr, ?mcr2, ?mrc, ?mrc2, ?mcrr, ?mrrc, ?ldc, ?ldc2, ?stc, ?stc2⟩
  case cdp => exact (asksCoprocessor_copOp hcp _).whenPassed hc
  case cdp2 => exact asksCoprocessor_copOp hcp _
  case mcr => exact (asksCoprocessor_copOp hcp _).whenPassed hc
  case mcr2 => exact ⟨_, (if_neg hcp).trans (if_neg hcp)⟩
  case mrc => exact (asksCoprocessor_copOp hcp _).whenPassed hc
  case mrc2 => exact ⟨_, (if_neg hcp).trans (if_neg hcp)⟩
  case mcrr => exact (asksCoprocessor_copOp hcp _).whenPassed hc
  case mrrc => exact (asksCoprocessor_copOp hcp _).whenPassed hc
  case ldc => exact (ldc _).whenPassed hc
  case ldc2 => exact ldc _
  case stc => exact (stc _).whenPassed hc
  case stc2 => exact stc _

theorem AsksCoprocessor.absent (h : AsksCoprocessor cp s r) (ha : copAnswer s cp = .absent) :
    Completes r (Enters { s with cops := advancePort cp [] s.cops } .undefined (s.pc + 4)) := by
  obtain ⟨k, rfl⟩ := h
  exact ⟨_, copOp_absent ha, enters_takeException .undefined (s.pc + 4) (copDone cp [] s) (by decide) (by decide)⟩

theorem AsksCoprocessor.wait (h : AsksCoprocessor cp s r) (hw : copAnswer s cp = .wait) :
    r = .next { s with cops := advancePort cp [] s.cops } := by
  obtain ⟨k, rfl⟩ := h
  exact copOp_wait hw

end

end Sys2Proof.Machine

section
open Sys2Proof Sys2Proof.Machine

/-- Settles O46: the ports by the place of the first that has the coprocessor's number, the instructions by
`exec_asksCoprocessor`. -/
theorem unacceptedCoprocessorInstructionsTrapOrWait : Obligations.UnacceptedCoprocessorInstructionsTrapOrWait := by
  refine ⟨fun cp received s => ⟨fun unattached => ?_, fun before p after hs others hp => ?_⟩, ?_⟩
  · exact ⟨copAnswer_unattached unattached, advancePort_unattached unattached⟩
  · have answer := copAnswer_attached hs others hp
    refine ⟨fun empty => ?_, fun first rest cons => ?_, ?_⟩
    · rw [answer, empty, List.headD_nil]
    · rw [answer, cons, List.headD_cons]
    · rw [hs, advancePort_append others, advancePort_cons_same hp, CopPort.advance]
  · intro c p u n w rn rd op1 crn crd cp crm opc op1' op2 offset8 s hc hcp hform i hi
    have asks := exec_asksCoprocessor hc hcp hform i hi
    exact ⟨asks.absent, asks.wait⟩

end

/-! Accepted coprocessor instructions (46_arm_coprocessor.md R396, R400 to R404): what each leaves once the coprocessor
has received its message. -/

namespace Sys2Proof.Machine

theorem Completes.whenPassed {c : Cond} {s : State} {r : Result} {P : State → Prop} (hc : condPassed c s.cpsr = true)
    (h : Completes r P) : Completes (whenPassed c s r) P :=
  (whenPassed_of_passed hc r).symm ▸ h

/-! The end of MRC (R402). -/

section
variable {rd : Reg} {v : Word} {s : State}

theorem writesReg_finishMrc (h : rd ≠ 15) : WritesReg s 4 rd v s.cpsr (advance 4 (finishMrc rd v s)) := by
  rw [finishMrc, if_neg h]
  exact writesReg_setReg s 4 rd v h

theorem writesFlags_finishMrc : WritesFlags s 4 (setNZCV s.cpsr (flag 31 v) (flag 30 v) (flag 29 v) (flag 28 v))
    (advance 4 (finishMrc 15 v s)) :=
  writesFlags_setCpsr s 4 _

/-- MRC puts `v` in `Rd`, or for r15 in the flags, and changes nothing else of `s`. -/
theorem finishMrc_completes {r : Result} (h : r = .next (advance 4 (finishMrc rd v s))) :
    (rd ≠ 15 → Completes r (WritesReg s 4 rd v s.cpsr)) ∧
      (rd = 15 → Completes r
        (WritesFlags s 4 (setNZCV s.cpsr (flag 31 v) (flag 30 v) (flag 29 v) (flag 28 v)))) := by
  refine ⟨fun hrd => ⟨_, h, writesReg_finishMrc hrd⟩, fun hrd => ⟨_, h, ?_⟩⟩
  rw [hrd]
  exact writesFlags_finishMrc

end

/-! A pair of registers (R404). -/

theorem fld_append_high (hi lo : Word) : fld 32 32 (hi ++ lo) = hi := BitVec.extractLsb'_append_eq_left

theorem fld_append_low (hi lo : Word) : fld 0 32 (hi ++ lo) = lo := BitVec.extractLsb'_append_eq_right

/-- Two registers written one after the other. -/
theorem writesPair_setReg_setReg (s : State) (len : Word) {hi lo : Reg} (vhi vlo : Word) (hh : hi ≠ 15) (hl : lo ≠ 15)
    (hne : hi ≠ lo) :
    WritesPair s len hi lo vhi vlo s.cpsr (advance len (setReg lo vlo (setReg hi vhi s))) := by
  have pair := writesPair_setRegPair s len hi lo (vhi ++ vlo) hh hl hne
  rwa [setRegPair, fld_append_high, fld_append_low] at pair

section
variable {c : Cond} {cp : BitVec 4} {first second : Word} {more : List Word} {s : State} {i : Instr}

/-- The state once coprocessor `cp` has received the word of `i`, the privilege and the words `sent` (R396). -/
def sentTo (cp : BitVec 4) (i : Instr) (sent : List Word) (s : State) : State := copDone cp [message s i sent] s

theorem cdpOp_completes (hcp : cp ≠ 14) (ha : copAnswer s cp = .accept first second more) :
    Completes (cdpOp cp i s) (WritesFlags (sentTo cp i [] s) 4 s.cpsr) :=
  ⟨_, (if_neg hcp).trans (copOp_accept ha), writesFlags_advance (sentTo cp i [] s) 4⟩

theorem mcrOp_completes {op1 op2 : BitVec 3} {crn crm : BitVec 4} {rd : Reg} (hcp : cp ≠ 14)
    (ha : copAnswer s cp = .accept first second more) :
    Completes (mcrOp op1 crn rd cp op2 crm i s) (WritesFlags (sentTo cp i [sentWord s rd] s) 4 s.cpsr) :=
  ⟨_, (if_neg hcp).trans (copOp_accept ha), writesFlags_advance (sentTo cp i [sentWord s rd] s) 4⟩

theorem mrcOp_accepted {op1 op2 : BitVec 3} {crn crm : BitVec 4} {rd : Reg} (hcp : cp ≠ 14)
    (ha : copAnswer s cp = .accept first second more) :
    mrcOp op1 crn rd cp op2 crm i s = .next (advance 4 (finishMrc rd first (sentTo cp i [] s))) :=
  (if_neg hcp).trans (copOp_accept ha)

theorem exec_mcr2 {op1 op2 : BitVec 3} {crn crm : BitVec 4} {rd : Reg} (hcp : cp ≠ 14) :
    exec (.mcr2 op1 crn rd cp op2 crm) s = mcrOp op1 crn rd cp op2 crm (.mcr2 op1 crn rd cp op2 crm) s :=
  if_neg hcp

theorem exec_mrc2 {op1 op2 : BitVec 3} {crn crm : BitVec 4} {rd : Reg} (hcp : cp ≠ 14) :
    exec (.mrc2 op1 crn rd cp op2 crm) s = mrcOp op1 crn rd cp op2 crm (.mrc2 op1 crn rd cp op2 crm) s :=
  if_neg hcp

theorem anyPc_pair {rd rn : Reg} (hrd : rd ≠ 15) (hrn : rn ≠ 15) : ¬ anyPc [rd, rn] = true := by
  rw [anyPc_iff, List.mem_pair]
  exact fun h => h.elim hrd.symm hrn.symm

theorem exec_mcrr_completes {rn rd : Reg} {opc crm : BitVec 4} (hc : condPassed c s.cpsr = true) (hcp : cp ≠ 14)
    (ha : copAnswer s cp = .accept first second more) (hrd : rd ≠ 15) (hrn : rn ≠ 15) :
    Completes (exec (.mcrr c rn rd cp opc crm) s)
      (WritesFlags (sentTo cp (.mcrr c rn rd cp opc crm) [armReg s rd, armReg s rn] s) 4 s.cpsr) :=
  ⟨_, (whenPassed_accept hc hcp ha).trans (if_neg (anyPc_pair hrd hrn)), writesFlags_advance _ 4⟩

theorem exec_mrrc_completes {rn rd : Reg} {opc crm : BitVec 4} (hc : condPassed c s.cpsr = true) (hcp : cp ≠ 14)
    (ha : copAnswer s cp = .accept first second more) (hrd : rd ≠ 15) (hrn : rn ≠ 15) (hne : rd ≠ rn) :
    Completes (exec (.mrrc c rn rd cp opc crm) s)
      (WritesPair (sentTo cp (.mrrc c rn rd cp opc crm) [] s) 4 rd rn first second s.cpsr) :=
  ⟨_, (whenPassed_accept hc hcp ha).trans ((if_neg (anyPc_pair hrd hrn)).trans (if_neg hne)),
    writesPair_setReg_setReg (sentTo cp _ [] s) 4 first second hrd hrn hne⟩

end

end Sys2Proof.Machine

section
open Sys2Proof Sys2Proof.Machine

/-- Settles O47: each form ends in the state after its message (`sentTo`), with what its operation writes there. -/
theorem acceptedCoprocessorInstructionsExchangeWords : Obligations.AcceptedCoprocessorInstructionsExchangeWords := by
  intro c rn rd op1 crn crd cp crm opc op1' op2 first second more s hc hcp ha after
  simp only [List.forall_mem_cons, List.not_mem_nil, false_implies, implies_true, and_true]
  refine ⟨⟨?cdp, ?cdp2⟩, ⟨?mcr, ?mcr2⟩, ⟨?mrc, ?mrc2⟩, fun hrd hrn => ⟨?mcrr, fun hne => ?mrrc⟩⟩
  case cdp => exact (cdpOp_completes hcp ha).whenPassed hc
  case cdp2 => exact cdpOp_completes hcp ha
  case mcr => exact (mcrOp_completes hcp ha).whenPassed hc
  case mcr2 =>
    rw [exec_mcr2 hcp]
    exact mcrOp_completes hcp ha
  case mrc => exact finishMrc_completes ((whenPassed_of_passed hc _).trans (mrcOp_accepted hcp ha))
  case mrc2 => exact finishMrc_completes ((exec_mrc2 hcp).trans (mrcOp_accepted hcp ha))
  case mcrr => exact exec_mcrr_completes hc hcp ha hrd hrn
  case mrrc => exact exec_mrrc_completes hc hcp ha hrd hrn hne

end

/-! Accepted LDC and STC (46_arm_coprocessor.md R405 to R407): every transfer answered, then the base of addressing
mode 5. -/

namespace Sys2Proof.Machine

section
variable {s t : State} {a : Word} {n : Nat}

/-- The words of an LDC whose transfers are all answered. -/
theorem ldcWords_of_answered (h : LoadsAnswered s a n) :
    ldcWords s n a = (List.range n).map fun k => readMem s .word (a + BitVec.ofNat 32 (4 * k)) :=
  (ldcWords_add (n := 0) h).trans (List.append_nil _)

/-- Transfers that go past the registers only show on the bus. -/
theorem loadList_none_done (h : LoadsAnswered s a n) :
    loadList (fun _ _ t => t) id (List.replicate n 0) a s = .done (loadsSeen s a n) := by
  have len : (List.replicate n (0 : Reg)).length = n := List.length_replicate
  have done := loadList_done (fun _ _ t => t) id (fun _ _ t => ⟨.refl t, rfl⟩) (List.replicate n 0) a s (by rwa [len])
  rwa [putLoaded_none, len] at done

theorem LoadsMany.of_latch {m : ModeBits} {regs : List Reg} {rn : Reg} {base : Option Word} {target flags : Word}
    {hz x : Bool} (h : LoadsMany { s with chainOut := x } m regs a rn base target flags hz t)
    (hk : LatchKept s { s with chainOut := x }) : LoadsMany s m regs a rn base target flags hz t := by
  obtain ⟨loaded, written, others, cpsr, pc, hazard, ⟨fiq, irq, svc, abt, und⟩, ⟨pins, lines, rules, inputs, tick⟩, dbg,
    latch, cops, memory⟩ := h
  exact ⟨loaded, written, others, cpsr, pc, hazard, ⟨fiq, irq, svc, abt, und⟩, ⟨pins, lines, rules, inputs, tick⟩, dbg,
    hk.trans latch rfl rfl, cops, memory⟩

/-- The end of a load that puts no word in a register. -/
theorem loadsMany_loadsSeen (start : Word) {rn : Reg} {base : Option Word} (hrn : ∀ b, base = some b → rn ≠ 15) :
    LoadsMany s (mode s) [] start rn base (s.pc + 4) s.cpsr s.userBankHazard
      (advance 4 (writeBase rn base (loadsSeen s a n))) := by
  have latch := latchKept_loadsSeen s a n
  obtain ⟨x, hx⟩ := loadsSeen_latchOnly s a n
  rw [hx] at latch ⊢
  exact (loadsMany_advance (s := { s with chainOut := x }) 4 List.nodup_nil List.not_mem_nil
    fun b hb => ⟨hrn b hb, List.not_mem_nil⟩).of_latch latch

end

/-! The base of addressing mode 5 (R407). -/

/-- The base that LDC or STC writes back, if it writes one. -/
def newBase5 (u w : Bool) (base : Word) (offset8 : BitVec 8) : Option Word :=
  if w then some (if u then base + 4 * zext offset8 else base - 4 * zext offset8) else none

section
variable {p u w : Bool} {rn : Reg} {cp : BitVec 4} {offset8 : BitVec 8} {i : Instr} {first second : Word}
  {more : List Word} {s : State}

theorem base5_eq_writeBase (t : State) :
    base5 u w rn offset8 s t = writeBase rn (newBase5 u w (armReg s rn) offset8) t := by
  rw [base5, newBase5, offsetAddr, offset5, shiftLeft_two_eq]
  cases w <;> rfl

theorem writesBack_of_newBase5 {base b : Word} (h : newBase5 u w base offset8 = some b) : w = true := by
  cases w with
  | false => cases h
  | true => rfl

theorem ldcOp_completes (hcp : cp ≠ 14) (hform : (p || u || w) = true) (hrn : w = true → rn ≠ 15)
    (ha : copAnswer s cp = .accept first second more)
    (hok : LoadsAnswered s (start5 p u (armReg s rn) offset8) (more.length + 1)) :
    let start := start5 p u (armReg s rn) offset8
    Completes (ldcOp p u w rn cp offset8 i s) (LoadsMany
      (sentTo cp i ((List.range (more.length + 1)).map fun k => readMem s .word (start + BitVec.ofNat 32 (4 * k))) s)
      (mode s) [] start rn (newBase5 u w (armReg s rn) offset8) (s.pc + 4) s.cpsr s.userBankHazard) := by
  intro start
  have done := loadList_none_done ((sameBus_copDone cp [message s i (ldcWords s (more.length + 1) start)] s).loadsAnswered
    rfl hok)
  have form := ldcOp_accepted (i := i) (offset8 := offset8) hcp hform hrn ha
  rw [done, ldcWords_of_answered hok] at form
  refine ⟨_, form, ?_⟩
  rw [base5_eq_writeBase]
  exact loadsMany_loadsSeen (s := sentTo cp i _ s) start fun _ hb => hrn (writesBack_of_newBase5 hb)

theorem stcOp_completes (hcp : cp ≠ 14) (hform : (p || u || w) = true) (hrn : w = true → rn ≠ 15)
    (hlen : more.length < 2 ^ 30) (ha : copAnswer s cp = .accept first second more) (hwf : Memory.wf s.mem = true)
    (hok : StoresAnswered s (first :: more) (start5 p u (armReg s rn) offset8)) :
    Completes (stcOp p u w rn cp offset8 i s) (StoresMany (sentTo cp i [] s) 4 (first :: more)
      (start5 p u (armReg s rn) offset8) rn (newBase5 u w (armReg s rn) offset8) s.userBankHazard) := by
  have done := storeList_done (first :: more) _ _ ((sameBus_copDone cp [message s i []] s).storesAnswered hok)
  have form := stcOp_accepted (i := i) (offset8 := offset8) hcp hform hrn ha
  rw [done] at form
  refine ⟨_, form, ?_⟩
  rw [base5_eq_writeBase]
  exact storesMany_advance (s := sentTo cp i [] s) 4 hwf hlen fun _ hb => hrn (writesBack_of_newBase5 hb)

end

end Sys2Proof.Machine

section
open Sys2Proof Sys2Proof.Machine

/-- Settles O48: LDC and LDC2 are `ldcOp` of their own word, STC and STC2 `stcOp`. -/
theorem coprocessorLoadsAndStores : Obligations.CoprocessorLoadsAndStores := by
  intro c p u n w rn crd cp offset8 first second more s hc hcp hform hrn hlen ha offset moved start base after
  have startEq : start5 p u (armReg s rn) offset8 = start := start5_eq p u (armReg s rn) offset8
  have ldc : LoadsAnswered s start (more.length + 1) → ∀ i, Completes (ldcOp p u w rn cp offset8 i s) (LoadsMany
      (after i ((List.range (more.length + 1)).map fun k => readMem s .word (start + BitVec.ofNat 32 (4 * k))))
      (mode s) [] start rn base (s.pc + 4) s.cpsr s.userBankHazard) := by
    rw [← startEq]
    exact fun hok _ => ldcOp_completes hcp hform hrn ha hok
  have stc : Memory.wf s.mem = true → StoresAnswered s (first :: more) start → ∀ i,
      Completes (stcOp p u w rn cp offset8 i s)
        (StoresMany (after i []) 4 (first :: more) start rn base s.userBankHazard) := by
    rw [← startEq]
    exact fun hwf hok _ => stcOp_completes hcp hform hrn hlen ha hwf hok
  simp only [List.forall_mem_cons, List.not_mem_nil, false_implies, implies_true, and_true]
  exact ⟨fun hok => ⟨(ldc hok _).whenPassed hc, ldc hok _⟩, fun hwf hok => ⟨(stc hwf hok _).whenPassed hc, stc hwf hok _⟩⟩

end

/-! The comms channel (46_arm_coprocessor.md R415 to R420; 10_state.md R62 to R67): each register from the processor's
side, the refusals of coprocessor 14, and scan chain 2 from the debugger's side. -/

namespace Sys2Proof

/-- Fields pushed one after another are appended. -/
theorem push_setWidth {N m n : Nat} (x : BitVec m) (y : BitVec n) (h : m + n ≤ N) :
    push (x.setWidth N) y = (x ++ y).setWidth N := by
  apply BitVec.eq_of_getLsbD_eq
  intro i hi
  rw [getLsbD_push _ y i (by omega), BitVec.getLsbD_setWidth, BitVec.getLsbD_setWidth, BitVec.getLsbD_append,
    decide_eq_true hi, Bool.true_and, Bool.true_and]
  by_cases low : i < n
  · simp [low]
  · simp [low, show i - n < N by omega]

section
variable {m n : Nat} {x : BitVec m} {v : BitVec n}

theorem flag_append_high (i : Nat) : flag (n + i) (x ++ v) = flag i x := by
  simp [flag, BitVec.getLsbD_append]

/-- A field of the high part of two appended words. -/
theorem fld_append_add (i l : Nat) : fld (n + i) l (x ++ v) = fld i l x := by
  refine eq_of_flag fun k hk => ?_
  rw [flag_fld, flag_fld, Nat.add_assoc, flag_append_high]

end

namespace Machine

section
variable {c : Cond} {s : State} {rd : Reg} {op1 op2 : BitVec 3} {crn crm : BitVec 4}

/-- The comms control register by its fields (R416). -/
theorem commsControl_eq : commsControl s =
    s.pins.commsVersion ++ 0#26 ++ BitVec.ofBool s.dbg.commsW ++ BitVec.ofBool s.dbg.commsR := by
  have version : push 0 s.pins.commsVersion = s.pins.commsVersion.setWidth 32 := by
    simp [push]
  rw [commsControl, version, push_setWidth _ _ (by decide), push_setWidth _ _ (by decide),
    push_setWidth _ _ (by decide), BitVec.setWidth_eq]
  rfl

/-! Reads. -/

theorem exec_mrc14 (hc : condPassed c s.cpsr = true) :
    exec (.mrc c op1 crn rd 14 op2 crm) s = mrc14 op1 crn rd op2 crm s :=
  (whenPassed_of_passed hc _).trans (if_pos rfl)

theorem mrc14_control : mrc14 0 0 rd 0 0 s = .next (advance 4 (finishMrc rd (commsControl s) s)) := rfl

theorem mrc14_data : mrc14 0 1 rd 0 0 s = .next (advance 4
    (finishMrc rd (if s.dbg.commsR then s.dbg.commsRead else Config.commsUnread s.tick)
      { s with dbg := { s.dbg with commsR := false } })) := rfl

theorem mrc14_dbgAbt : mrc14 0 2 rd 0 0 s = .next (advance 4 (finishMrc rd (zext (bit s.dbg.dbgAbt)) s)) := rfl

theorem zext_bit (b : Bool) : zext (bit b) = if b then 1 else 0 := by
  cases b <;> rfl

/-! Writes. -/

theorem exec_mcr14 (hc : condPassed c s.cpsr = true) :
    exec (.mcr c op1 crn rd 14 op2 crm) s = mcr14 op1 crn rd op2 crm s :=
  (whenPassed_of_passed hc _).trans (if_pos rfl)

theorem mcr14_control : mcr14 0 0 rd 0 0 s = .refused .commsControlWrite := rfl

theorem mcr14_data : mcr14 0 1 rd 0 0 s = .next (advance 4 { s with dbg := { s.dbg with
    commsWrite := if s.dbg.commsW then Config.commsOverwritten s.tick else sentWord s rd
    commsW := true } }) := rfl

theorem mcr14_dbgAbt : mcr14 0 2 rd 0 0 s = .next (advance 4 (setDbgAbt (flag 0 (sentWord s rd)) s)) := rfl

/-! Any other instruction (R420, U22). -/

/-- No register of coprocessor 14 has a number above 2. -/
theorem ne_of_two_lt (h : 2 < crn) : crn ≠ 0 ∧ crn ≠ 1 ∧ crn ≠ 2 := by
  revert crn
  decide

theorem mrc14_refused (h : op1 ≠ 0 ∨ op2 ≠ 0 ∨ crm ≠ 0 ∨ 2 < crn) :
    mrc14 op1 crn rd op2 crm s = .refused .cp14Encoding := by
  by_cases fields : op1 ≠ 0 ∨ op2 ≠ 0 ∨ crm ≠ 0
  · exact if_pos fields
  · obtain ⟨ne0, ne1, ne2⟩ := ne_of_two_lt (show 2 < crn by tauto)
    rw [mrc14, if_neg fields, if_neg ne0, if_neg ne1, if_neg ne2]

theorem mcr14_refused (h : op1 ≠ 0 ∨ op2 ≠ 0 ∨ crm ≠ 0 ∨ 2 < crn) :
    mcr14 op1 crn rd op2 crm s = .refused .cp14Encoding := by
  by_cases fields : op1 ≠ 0 ∨ op2 ≠ 0 ∨ crm ≠ 0
  · exact if_pos fields
  · obtain ⟨ne0, ne1, ne2⟩ := ne_of_two_lt (show 2 < crn by tauto)
    rw [mcr14, if_neg fields, if_neg ne0, if_neg ne1, if_neg ne2]

/-! The debugger's side (65_debug_interface.md R709). -/

theorem tapData_scan2 (hi : s.dbg.tapInstruction = 0b1100) (hn : s.dbg.scanChain = 2) (bits : BitVec 38) :
    tapData bits s = scan2 bits s := by
  have notScanN : ¬ s.dbg.tapInstruction = 0b0010 := by
    rw [hi]
    decide
  rw [tapData, if_neg notScanN, if_pos ⟨hi, hn⟩]

/-- A write to the comms data register of the debugger sets R (10_state.md R63). -/
theorem scan2_writeData (v : Word) : scan2 (0b100101#6 ++ v) s = { s with dbg := { s.dbg with
    commsRead := v, commsR := true, held := false, chain2 := 0b100101#6 ++ v } } := by
  have write : flag 37 (0b100101#6 ++ v) = true := flag_append_high 5
  have addr : fld 32 5 (0b100101#6 ++ v) = 0b00101 := fld_append_add 0 5
  have data : fld 0 32 (0b100101#6 ++ v) = v := BitVec.extractLsb'_append_eq_right
  have latch : (s.chainOut && (0b00101 : BitVec 5) != 0b10100) = s.chainOut := Bool.and_true _
  rw [scan2, if_pos write, addr, data]
  simp only [latch]
  rfl

/-- A read of the comms data that the processor wrote clears W, and leaves the data for the next scan. -/
theorem scan2_readData (v : Word) : scan2 (0b000101#6 ++ v) s = { s with dbg := { s.dbg with
    commsW := false, held := false, chain2 := 0b000101#6 ++ s.dbg.commsWrite } } := by
  have read : ¬ flag 37 (0b000101#6 ++ v) = true := by
    rw [show flag 37 (0b000101#6 ++ v) = flag 5 0b000101#6 from flag_append_high 5]
    decide
  have addr : fld 32 5 (0b000101#6 ++ v) = 0b00101 := fld_append_add 0 5
  have shifted : fld 32 6 (0b000101#6 ++ v) = 0b000101 := fld_append_add 0 6
  rw [scan2, if_neg read, addr, shifted]
  rfl

end

end Machine

end Sys2Proof

section
open Sys2Proof Sys2Proof.Machine

/-- Settles O49: coprocessor 14 by the register each form names, and scan chain 2 by the address it shifts in. -/
theorem commsChannelRegisters : Obligations.CommsChannelRegisters := by
  intro c rd s d
  refine ⟨fun hc => ?processor, ?unconditional, fun hi hn v => ?debugger⟩
  case processor =>
    intro reads writes v
    have readsOf : ∀ {crn w s'}, mrc14 0 crn rd 0 0 s = .next (advance 4 (finishMrc rd w s')) → s'.cpsr = s.cpsr →
        reads crn w s' := by
      intro crn w s' form kept
      have ends := finishMrc_completes ((exec_mrc14 hc).trans form)
      rwa [kept] at ends
    have writesOf : ∀ {crn s'}, mcr14 0 crn rd 0 0 s = .next (advance 4 s') → s'.cpsr = s.cpsr → writes crn s' := by
      intro crn s' form kept
      have ends := writesFlags_advance s' 4
      rw [kept] at ends
      exact ⟨_, (exec_mcr14 hc).trans form, ends⟩
    refine ⟨?version, fun hr => ?data, fun hr => ⟨Config.commsUnread s.tick, ?unread⟩, ?dbgAbt,
      fun hw => ?write, fun hw => ⟨Config.commsOverwritten s.tick, ?overwrite⟩, ?writeDbgAbt, ?writeControl,
      fun op1 op2 crn crm h => ⟨?mrc, ?mcr⟩, ?others⟩
    case version => exact readsOf (commsControl_eq ▸ mrc14_control) rfl
    case data => exact readsOf (mrc14_data.trans (by rw [if_pos hr])) rfl
    case unread => exact readsOf (mrc14_data.trans (by rw [if_neg (Bool.eq_false_iff.mp hr)])) rfl
    case dbgAbt => exact readsOf (zext_bit d.dbgAbt ▸ mrc14_dbgAbt) rfl
    case write => exact writesOf (mcr14_data.trans (by rw [if_neg (Bool.eq_false_iff.mp hw)]; rfl)) rfl
    case overwrite => exact writesOf (mcr14_data.trans (by rw [if_pos hw])) rfl
    case writeDbgAbt => exact writesOf mcr14_dbgAbt rfl
    case writeControl => exact (exec_mcr14 hc).trans mcr14_control
    case mrc => exact (exec_mrc14 hc).trans (mrc14_refused h)
    case mcr => exact (exec_mcr14 hc).trans (mcr14_refused h)
    case others =>
      intro op1 crn crd op2 crm opc rn p u n w offset8
      simp only [List.forall_mem_cons, List.not_mem_nil, false_implies, implies_true, and_true]
      exact ⟨refused_first hc rfl, refused_first hc rfl, refused_first hc rfl, refused_first hc rfl,
        refused_first hc rfl⟩
  case unconditional =>
    intro op1 op1' crn crd op2 crm p u n w rn offset8
    simp only [List.forall_mem_cons, List.not_mem_nil, false_implies, implies_true, and_true]
    exact ⟨rfl, rfl, rfl, rfl, rfl⟩
  case debugger =>
    intro scan
    have scanOf : ∀ {bits t}, scan2 bits s = t → applyEvent (.tapData bits) s = .next t := fun h =>
      congrArg Host.Outcome.next ((tapData_scan2 hi hn _).trans h)
    exact ⟨scanOf (scan2_writeData v), scanOf (scan2_readData v)⟩

end

/-! Thumb data processing (47_thumb_data_processing.md R432 to R477): the endings that the low-register forms share, the
order of the operands of NEG, and the high-register forms once H1 or H2 names a high register. -/

namespace Sys2Proof.Machine

/-! The low registers: one ending for each kind of flags. -/

section
variable (rd : LowReg) (s : State)

theorem thumbWrite_writesReg (v flags : Word) :
    Completes (thumbWrite rd v flags s) (WritesReg s 2 (lowReg rd) v flags) :=
  ⟨_, rfl, writesReg_setCpsr s 2 (lowReg rd) v flags (lowReg_ne_pc rd)⟩

theorem thumbLogical_writesReg (v : Word) :
    Completes (thumbLogical rd v s) (WritesReg s 2 (lowReg rd) v (setResultNZ s.cpsr v)) :=
  thumbWrite_writesReg rd s v _

theorem thumbShift_writesReg (r : Shifted) :
    Completes (thumbShift rd r s) (WritesReg s 2 (lowReg rd) r.value (setLogical s.cpsr r.value r.carry)) :=
  thumbWrite_writesReg rd s r.value _

/-- A sum or difference, by its value `v`. -/
theorem thumbArithmetic_writesReg {r : AluResult} {v : Word} (hv : r.value = v) :
    Completes (thumbArithmetic rd r s) (WritesReg s 2 (lowReg rd) v (setArithmetic s.cpsr r)) :=
  hv ▸ thumbWrite_writesReg rd s r.value _

theorem thumbFlags_writesFlags (flags : Word) : Completes (thumbFlags flags s) (WritesFlags s 2 flags) :=
  ⟨_, rfl, writesFlags_setCpsr s 2 flags⟩

/-- The end of a form that writes a register and no flag. -/
theorem setReg_advance_two_writesReg {r : Reg} (hr : r ≠ 15) {v w : Word} (hv : v = w) :
    Completes (.next (advance 2 (setReg r v s))) (WritesReg s 2 r w s.cpsr) :=
  ⟨_, rfl, (writesReg_setReg s 2 r v hr).congr hv rfl⟩

end

theorem addWithCarry_comm (x y : Word) (k : Bool) : addWithCarry x y k = addWithCarry y x k := by
  simp only [addWithCarry, Nat.add_comm x.toNat, Int.add_comm x.toInt]

/-- NEG as the rule writes it, a subtraction from 0 (R452). -/
theorem exec_tNeg (rs rd : LowReg) (s : State) :
    exec (.tNeg rs rd) s = thumbArithmetic rd (addWithCarry 0 (~~~low s rs) true) s :=
  congrArg (thumbArithmetic rd · s) (addWithCarry_comm _ _ _)

theorem exec_tMul_of_ne {rs rd : LowReg} {s : State} (h : rd ≠ rs) :
    exec (.tMul rs rd) s = thumbLogical rd (low s rd * low s rs) s := if_neg h

/-- MUL of a register into itself (R456). -/
theorem exec_tMul_same {rd : LowReg} {s : State} : exec (.tMul rd rd) s = .refused .multiplyRegisters := if_pos rfl

/-! The high registers (R470 to R473). -/

section
variable {h1 h2 : Bool} {rs rd : LowReg} {s : State}

/-- r15 as destination is a branch that stays in Thumb state (R473). -/
theorem highWrite_completes (d : Reg) (v : Word) :
    (d ≠ 15 → Completes (highWrite d v s) (WritesReg s 2 d v s.cpsr)) ∧
    (d = 15 → Completes (highWrite d v s) (Branches s (v &&& 0xFFFFFFFE) s.cpsr none)) := by
  refine ⟨fun other => ?_, fun pc => ?_⟩
  · rw [highWrite, if_neg other]
    exact setReg_advance_two_writesReg s other rfl
  · rw [highWrite, if_pos pc]
    exact ⟨_, rfl, branches_branchTo s (evenAddr v)⟩

/-- The check of every high-register form fails exactly where both registers are low. -/
theorem bothLow_eq : (!h1 && !h2) = !(h1 || h2) := (Bool.not_or h1 h2).symm

theorem exec_tAddHigh (high : (h1 || h2) = true) : exec (.tAddHigh h1 h2 rs rd) s =
    highWrite (highReg h1 rd) (thumbReg s (highReg h1 rd) + thumbReg s (highReg h2 rs)) s :=
  if_neg (by rw [bothLow_eq, high]; exact Bool.false_ne_true)

theorem exec_tMovHigh (high : (h1 || h2) = true) : exec (.tMovHigh h1 h2 rs rd) s =
    highWrite (highReg h1 rd) (thumbReg s (highReg h2 rs)) s :=
  if_neg (by rw [bothLow_eq, high]; exact Bool.false_ne_true)

theorem exec_tCmpHigh (high : (h1 || h2) = true) (other : highReg h1 rd ≠ 15) : exec (.tCmpHigh h1 h2 rs rd) s =
    thumbFlags (setArithmetic s.cpsr
      (addWithCarry (thumbReg s (highReg h1 rd)) (~~~thumbReg s (highReg h2 rs)) true)) s :=
  if_neg (by rw [bothLow_eq, high, beq_eq_false_iff_ne.mpr other]; exact Bool.false_ne_true)

/-- CMP with r15 first (R471). -/
theorem exec_tCmpHigh_pc (pc : highReg h1 rd = 15) : exec (.tCmpHigh h1 h2 rs rd) s = .refused .thumbHighForm :=
  if_pos (by rw [pc, beq_self_eq_true, Bool.or_true])

/-- The high-register forms of two low registers. -/
theorem highForms_bothLow (bothLow : (h1 || h2) = false) :
    ∀ i ∈ [Instr.tAddHigh h1 h2 rs rd, .tMovHigh h1 h2 rs rd, .tCmpHigh h1 h2 rs rd],
      exec i s = .refused .thumbHighForm := by
  have check : (!h1 && !h2) = true := by rw [bothLow_eq, bothLow]; rfl
  simp only [List.forall_mem_cons, List.not_mem_nil, false_implies, implies_true, and_true]
  exact ⟨if_pos check, if_pos check, if_pos (Bool.or_eq_true_iff.mpr (.inl check))⟩

end

end Sys2Proof.Machine

section
open Sys2Proof Sys2Proof.Machine

/-- Settles O51: the sums and differences share the ending `thumbArithmetic_writesReg`, each with its value; the
comparisons share `thumbFlags_writesFlags`. -/
theorem thumbArithmetic : Obligations.ThumbArithmetic := by
  intro rn rs rd imm3 imm8 s
  have writes {r : AluResult} {v : Word} (hv : r.value = v) := thumbArithmetic_writesReg rd s hv
  simp only [← low_eq_armReg, exec_tNeg]
  refine ⟨?addReg, ?subReg, ?addImm3, ?subImm3, ?addImm8, ?subImm8, ?adc, ?sbc, ?neg, ?cmpImm, ?cmpReg, ?cmn⟩
  case addReg => exact writes (addWithCarry_add_value _ _)
  case subReg => exact writes (addWithCarry_sub_value _ _)
  case addImm3 => exact writes (addWithCarry_add_value _ _)
  case subImm3 => exact writes (addWithCarry_sub_value _ _)
  case addImm8 => exact writes (addWithCarry_add_value _ _)
  case subImm8 => exact writes (addWithCarry_sub_value _ _)
  case adc => exact writes (addWithCarry_value _ _ _)
  case sbc => exact writes (addWithCarry_not_value _ _ _)
  case neg => exact writes (addWithCarry_sub_value _ _)
  case cmpImm => exact thumbFlags_writesFlags s _
  case cmpReg => exact thumbFlags_writesFlags s _
  case cmn => exact thumbFlags_writesFlags s _

/-- Settles O50: the seven share the ending `thumbShift_writesReg`. -/
theorem thumbShifts : Obligations.ThumbShifts := by
  intro imm5 rs rd s
  simp only [← low_eq_armReg]
  have byImm (kind : ShiftKind) := thumbShift_writesReg rd s (shiftByImm (psrC s.cpsr) kind (low s rs) imm5)
  have byReg (kind : ShiftKind) :=
    thumbShift_writesReg rd s (shiftByReg (psrC s.cpsr) kind (low s rd) (fld 0 8 (low s rs)))
  exact ⟨byImm .lsl, byImm .lsr, byImm .asr, byReg .lsl, byReg .lsr, byReg .asr, byReg .ror⟩

/-- Settles O52: the results share the ending `thumbLogical_writesReg`; MUL passes its check where its registers differ
(`exec_tMul_of_ne`). -/
theorem thumbLogical : Obligations.ThumbLogical := by
  intro rs rd imm8 s
  have writes := thumbLogical_writesReg rd s
  simp only [← low_eq_armReg]
  refine ⟨?movImm, ?and, ?eor, ?orr, ?bic, ?mvn, fun differ => ?mul, exec_tMul_same, ?tst⟩
  case movImm => exact writes (zext imm8)
  case and => exact writes (low s rd &&& low s rs)
  case eor => exact writes (low s rd ^^^ low s rs)
  case orr => exact writes (low s rd ||| low s rs)
  case bic => exact writes (low s rd &&& ~~~low s rs)
  case mvn => exact writes (~~~low s rs)
  case mul =>
    rw [exec_tMul_of_ne differ]
    exact writes (low s rd * low s rs)
  case tst => exact thumbFlags_writesFlags s _

/-- Settles O53: the high-register forms are `highWrite`, which branches where the destination is r15; the additions to
the pc and the stack pointer write one register and no flag. -/
theorem thumbHighRegistersAndAddresses : Obligations.ThumbHighRegistersAndAddresses := by
  refine ⟨fun _ _ => rfl, ?_⟩
  intro h1 h2 rs rd imm7 imm8 s d m x y sp goesTo
  have scaled {n : Nat} (imm : BitVec n) : zext imm <<< 2 = 4 * zext imm := shiftLeft_two_eq _
  refine ⟨fun high => ⟨?add, ?mov, fun other => ?cmp, exec_tCmpHigh_pc⟩, highForms_bothLow,
    ?addPc, ?addSp, ?incSp, ?decSp⟩
  case add =>
    simp only [goesTo, exec_tAddHigh high]
    exact highWrite_completes d (x + y)
  case mov =>
    simp only [goesTo, exec_tMovHigh high]
    exact highWrite_completes d y
  case cmp =>
    rw [exec_tCmpHigh high other]
    exact thumbFlags_writesFlags s _
  case addPc => exact setReg_advance_two_writesReg s (lowReg_ne_pc rd) (thumbPcBase_offset_eq s imm8)
  case addSp => exact setReg_advance_two_writesReg s (lowReg_ne_pc rd) (congrArg (sp + ·) (scaled imm8))
  case incSp => exact setReg_advance_two_writesReg s (by decide) (congrArg (sp + ·) (scaled imm7))
  case decSp => exact setReg_advance_two_writesReg s (by decide) (congrArg (sp - ·) (scaled imm7))

end

/-! Thumb branches to a label (48_thumb_branch_load_store.md R520 to R532): the target in integers modulo 2^32, and the two
halves of BL as one branch. -/

namespace Sys2Proof.Machine

/-- What a Thumb branch adds to pc + 4, in integers modulo 2^32: an offset in units of `2 ^ k` bytes (R521, R530). -/
theorem thumbOffset_eq_ofInt {n : Nat} (s : State) (offset : BitVec n) (k : Nat) :
    s.pc + 4 + (sext offset <<< k) = BitVec.ofInt 32 (s.pc.toInt + 4 + 2 ^ k * offset.toInt) := by
  rw [sext_shiftLeft, BitVec.ofInt_add, BitVec.ofInt_add, BitVec.ofInt_toInt]
  rfl

/-- An address without bit 0 is not changed by clearing it. -/
theorem evenAddr_of_even {a : Word} (h : AlignedFor true a) : evenAddr a = a := by
  obtain ⟨low, -⟩ := (alignedFor_iff_flag true a).mp h
  refine eq_of_flag fun i hi => ?_
  have mask : flag i (0xFFFFFFFE : Word) = decide (i ≠ 0) := by
    revert i
    decide
  have masked : flag i (evenAddr a) = (flag i a && flag i (0xFFFFFFFE : Word)) := BitVec.getLsbD_and
  rw [masked, mask]
  obtain rfl | other := eq_or_ne i 0
  · rw [low, Bool.false_and]
  · rw [decide_eq_true other, Bool.and_true]

/-- The halves of BL put together: the high one in units of 4096 bytes, the low one in halfwords (R530, R532). -/
theorem toInt_append_halves (hi lo : BitVec 11) : 2 * (hi ++ lo).toInt = 4096 * hi.toInt + 2 * (lo.toNat : Int) := by
  rw [BitVec.toInt_append, if_neg (by decide)]
  ring

theorem zext_shiftLeft_one {n : Nat} (v : BitVec n) : zext v <<< 1 = BitVec.ofInt 32 (2 * (v.toNat : Int)) := by
  rw [shiftLeft_one_eq, BitVec.ofInt_mul, BitVec.ofInt_natCast, BitVec.ofNat_toNat]
  rfl

theorem SpecialsKept.trans {s t u : State} (h : SpecialsKept s t) (h' : SpecialsKept t u) : SpecialsKept s u where
  spsrs := ⟨h'.spsrs.fiq.trans h.spsrs.fiq, h'.spsrs.irq.trans h.spsrs.irq, h'.spsrs.svc.trans h.spsrs.svc,
    h'.spsrs.abt.trans h.spsrs.abt, h'.spsrs.und.trans h.spsrs.und⟩
  outside := ⟨h'.outside.pins.trans h.outside.pins, h'.outside.lines.trans h.outside.lines,
    h'.outside.accessRules.trans h.outside.accessRules, h'.outside.inputs.trans h.outside.inputs,
    h'.outside.tick.trans h.outside.tick⟩
  dbg := h'.dbg.trans h.dbg
  latch := h.latch.trans h'.latch h.outside.pins h.dbg
  cops := h'.cops.trans h.cops
  hazard := h'.hazard.trans h.hazard
  entered := h'.entered.trans h.entered

theorem MemKept.trans {s t u : State} (h : MemKept s t) (h' : MemKept t u) : MemKept s u :=
  ⟨fun a => (h'.1 a).trans (h.1 a), fun a => (h'.2 a).trans (h.2 a)⟩

/-- A branch with a link after an instruction that wrote r14: only the branch's own link is left. -/
theorem Branches.of_writesLink {s t u : State} {len v target link : Word} (h : WritesReg s len 14 v s.cpsr t)
    (hb : Branches t target t.cpsr (some link) u) : Branches s target s.cpsr (some link) u := by
  have sameMode : mode t = mode s := congrArg psrM h.cpsr
  exact
    { pc := hb.pc
      cpsr := hb.cpsr.trans h.cpsr
      linked := fun l hl => sameMode ▸ hb.linked l hl
      others := h.others.trans (sameMode ▸ hb.others)
      specials := h.specials.trans hb.specials
      latch := hb.latch.trans h.latch
      memory := h.memory.trans hb.memory
      refilled := hb.refilled }

theorem alignedFor_shiftLeft_twelve (a : Word) : AlignedFor true (a <<< 12) :=
  (alignedFor_iff_flag _ _).mpr ⟨by simp [flag], nofun⟩

/-- The second half of BL (R532). -/
theorem exec_tBlLow_branches (offset : BitVec 11) (s : State) :
    Completes (exec (.tBlLow offset) s)
      (Branches s (evenAddr (regAt s (mode s) 14 + (zext offset <<< 1))) s.cpsr (some ((s.pc + 2) ||| 1))) :=
  ⟨_, rfl, branches_link_keep s _ _⟩

end Sys2Proof.Machine

section
open Sys2Proof Sys2Proof.Machine

/-- Settles O54: the targets by `thumbOffset_eq_ofInt`, the endings by the frames of a branch without a link, with one, and
with one and a new state bit. -/
theorem thumbBranchesToALabel : Obligations.ThumbBranchesToALabel := by
  intro c simm8 simm11 offset11 offset10 s
  refine ⟨fun hc => ?cond, ?always, ?high, ?low, ?exchange⟩
  case cond => exact ⟨_, if_pos hc, (branches_branchTo s _).congr (thumbOffset_eq_ofInt s simm8 1)⟩
  case always => exact ⟨_, rfl, (branches_branchTo s _).congr (thumbOffset_eq_ofInt s simm11 1)⟩
  case high => exact setReg_advance_two_writesReg s (by decide) (thumbOffset_eq_ofInt s offset11 12)
  case low =>
    rw [← shiftLeft_one_eq]
    exact exec_tBlLow_branches offset11 s
  case exchange =>
    rw [← shiftLeft_two_eq]
    exact ⟨_, rfl, branches_link s _ false _⟩

/-- Settles O55: the first half writes r14, the second reads it back and branches (`Branches.of_writesLink`). -/
theorem thumbLongBranchPair : Obligations.ThumbLongBranchPair := by
  intro hi lo s (even : AlignedFor true s.pc)
  have first := setReg_advance_two_writesReg s (r := 14) (by decide) (thumbOffset_eq_ofInt s hi 12)
  obtain ⟨t, ht, wrote⟩ := first
  obtain ⟨u, hu, branched⟩ := exec_tBlLow_branches lo t
  refine ⟨u, ?_, ?_⟩
  · rw [show exec (.tBlHigh hi) s = .next t from ht]
    exact hu
  have sameMode : mode t = mode s := congrArg psrM wrote.cpsr
  have target : evenAddr (regAt t (mode t) 14 + (zext lo <<< 1)) =
      BitVec.ofInt 32 (s.pc.toInt + 4 + 2 * (hi ++ lo).toInt) := by
    have aligned := ((even.add (alignedFor_four true)).add (alignedFor_shiftLeft_twelve (sext hi))).add
      (alignedFor_halfwords (zext lo))
    rw [sameMode, wrote.result, ← thumbOffset_eq_ofInt, evenAddr_of_even aligned, thumbOffset_eq_ofInt,
      zext_shiftLeft_one, ← BitVec.ofInt_add, toInt_append_halves, ← Int.add_assoc]
    rfl
  have link : (t.pc + 2) ||| 1 = (s.pc + 4) ||| 1 := by
    rw [wrote.pc, BitVec.add_assoc]
    rfl
  rw [target, link] at branched
  exact Branches.of_writesLink wrote branched
end

/-! Thumb loads and stores (48_thumb_branch_load_store.md R490 to R513): each form is a load or a store of modes 2 and 3
without a write-back, and each multiple form ends as its ARM counterpart. -/

namespace Sys2Proof.Machine

section
variable {s : State} {z : Size} {addr a v : Word} {rd : LowReg} {r : Result}

/-- A load at `a`, as the rule writes the address, of `value` there. -/
theorem thumbLoad_loads {value : Word → Word} (ha : addr = a) (hv : value a = v)
    (hok : dataAnswer s (dataAccess s false z false false a) 0 = .ok) :
    Completes (thumbLoad z addr rd (value addr) s) (Loads s 2 (lowReg rd) v 0 none) := by
  subst ha hv
  exact loadTo_loads (idx := .offset) (u := true) (rn := 0) (o := 0) rfl (lowReg_ne_pc rd) nofun hok

/-- A store at `a`, performed or ignored by the memory system. -/
theorem thumbStore_ends (ha : addr = a) (hwf : Memory.wf s.mem = true) :
    let answer := dataAnswer s (dataAccess s false z true false a) (armReg s (lowReg rd))
    (answer = .ok → Completes (thumbStore z addr rd s) (Stores s 2 z a (armReg s (lowReg rd)) 0 none)) ∧
    (answer = .ignored → Completes (thumbStore z addr rd s) (IgnoresStore s 2 0 none)) := by
  subst ha
  rw [thumbStore, low_eq_armReg]
  exact ⟨storeFrom_stores (idx := .offset) (u := true) (rn := 0) (o := 0) rfl hwf nofun,
    storeFrom_ignoresStore (idx := .offset) (u := true) (rn := 0) (o := 0) rfl nofun⟩

/-- A halfword access goes on at an even address and is refused at an odd one. -/
theorem thumbHalf_ends {goesOn : Result → Prop} (ha : addr = a) (h : goesOn r) :
    (flag 0 a = false → goesOn (thumbHalf addr r)) ∧
    (flag 0 a = true → thumbHalf addr r = .refused .unalignedAccess) := by
  subst ha
  refine ⟨fun even => (thumbHalf_aligned even).symm ▸ h, fun odd => if_neg ?_⟩
  rw [halfAligned_eq_false odd]
  exact Bool.false_ne_true

end

/-! The multiple forms. -/

section
variable {s : State} {regs : List Reg} {a b : Word} {base : Reg}

/-- The end of PUSH and STMIA: the words ascend from `a` and the base becomes `b`. -/
theorem thumbBlockStore_storesMany {words : List Word} (hwf : Memory.wf s.mem = true) (hl : words.length ≤ 2 ^ 30)
    (hb : base ≠ 15) (hok : StoresAnswered s words a) :
    Completes (thumbBlockStore base a b words s) (StoresMany s 2 words a base (some b) s.userBankHazard) := by
  have done := storeList_done words a s hok
  exact ⟨_, congrArg (Transfer.thenDo · _) done, storesMany_advance 2 hwf hl fun _ _ => hb⟩

/-- The end of LDMIA, and of POP without r15. -/
theorem thumbBlockLoad_loadsMany (restore : State → State) (hd : regs.Nodup) (h15 : (15 : Reg) ∉ regs) (hb : base ≠ 15)
    (hunlisted : base ∉ regs) (hok : LoadsAnswered s a regs.length) :
    Completes ((loadList setReg restore regs a s).thenDo fun t => .next (advance 2 (setReg base b t)))
      (LoadsMany s (mode s) regs a base (some b) (s.pc + 2) s.cpsr s.userBankHazard) :=
  ⟨_, congrArg (Transfer.thenDo · _) (loadList_setReg_done restore hok),
    loadsMany_advance 2 hd h15 fun _ _ => ⟨hb, hunlisted⟩⟩

/-- A list of low registers names none from r8 on. -/
theorem notMem_listedRegs_low {list : BitVec 8} {q : Reg} (h : 8 ≤ q.toNat) : q ∉ listedRegs list := fun hq => by
  have listed := (mem_listedRegs (by decide)).mp hq
  rw [BitVec.getLsbD_of_ge _ _ h] at listed
  cases listed

theorem lowReg_mem_listedRegs {list : BitVec 8} {rb : LowReg} :
    lowReg rb ∈ listedRegs list ↔ list.getLsbD rb.toNat = true := by
  rw [mem_listedRegs (by decide), lowReg, BitVec.toNat_setWidth_of_le (by decide)]

/-- POP without r15 (R511). -/
theorem exec_tPop_sequential {list : BitVec 8} (hl : list ≠ 0) :
    exec (.tPop false list) s =
      (loadList setReg (setReg 13 (armReg s 13)) (listedRegs list) (regAt s (mode s) 13) s).thenDo fun t =>
        .next (advance 2 (setReg 13 (regAt s (mode s) 13 + BitVec.ofNat 32 (4 * (listedRegs list).length)) t)) := by
  have all : listedRegs list ++ (if false then [15] else []) = listedRegs list := List.append_nil _
  have form := exec_tPop (s := s) (r := false) (all ▸ listedRegs_ne_nil (by decide) hl)
  rwa [all] at form

/-- The state after the transfers of a POP that lists r15, and the new stack pointer. -/
def popped (list : BitVec 8) (s : State) : State :=
  let sp := regAt s (mode s) 13
  writeBase 13 (some (sp + BitVec.ofNat 32 (4 * (listedRegs list ++ [14]).length)))
    (putLoaded (setRegAt (mode s)) (listedRegs list ++ [15]) sp s)

theorem popped_pins (list : BitVec 8) (s : State) : (popped list s).pins = s.pins := by
  simp [popped, writeBase]

theorem popped_cpsr (list : BitVec 8) (s : State) : (popped list s).cpsr = s.cpsr := by
  simp [popped, writeBase]

/-- POP with r15, the last of its list: a load to the PC of the last word (R511). -/
theorem exec_tPop_pc {list : BitVec 8} (hok : LoadsAnswered s (regAt s (mode s) 13) (listedRegs list ++ [14]).length) :
    exec (.tPop true list) s = loadPc (readMem s .word (regAt s (mode s) 13 +
      (BitVec.ofNat 32 (4 * (listedRegs list ++ [14]).length) - 4))) (popped list s) := by
  have count : (listedRegs list ++ [14]).length = (listedRegs list ++ [15]).length := by simp
  have form := exec_tPop (s := s) (list := list) (r := true) (List.append_ne_nil_of_right_ne_nil _ (List.cons_ne_nil _ _))
  refine form.trans ?_
  rw [ofNat_four_mul_sub (by simp), popped, count]
  rw [count] at hok
  exact congrArg (Transfer.thenDo · _) (loadList_setReg_done _ hok)

end

end Sys2Proof.Machine

section
open Sys2Proof Sys2Proof.Machine

/-- Settles O56: every form is `thumbLoad_loads` at its address, the halfword forms under `thumbHalf_ends`. -/
theorem thumbLoads : Obligations.ThumbLoads := by
  intro ro rb rd imm5 imm8 s x o word ends half pcRel spRel
  have byte (a : Word) : readMem s .byte a = zext (memGet s.mem a.toNat) := readMem_byte s a
  have signed (a : Word) : sext (fld 0 8 (readMem s .byte a)) = (memGet s.mem a.toNat).signExtend 32 :=
    congrArg sext (fld_readMem_byte s a)
  have reg : regOffset s ro rb = x + o := regOffset_eq s ro rb
  have half_ends {i : Instr} {addr a v : Word} {value : Word → Word} (ha : addr = a) (hv : value a = v)
      (hi : exec i s = thumbHalf addr (thumbLoad .half addr rd (value addr) s)) : half i a v := by
    simp only [half, ends, hi]
    exact thumbHalf_ends (goesOn := fun r => _ → Completes r _) ha (thumbLoad_loads ha hv)
  refine ⟨?pc, ?sp, ?reg, ?imm, ?byteReg, ?byteImm, ?signedByte, ?halfReg, ?halfImm, ?signedHalf⟩
  case pc => exact thumbLoad_loads (value := readMem s .word) (thumbPcBase_offset_eq s imm8) rfl
  case sp => exact thumbLoad_loads (value := loadedWord s) (spOffset_eq s imm8) rfl
  case reg => exact thumbLoad_loads (value := loadedWord s) reg rfl
  case imm => exact thumbLoad_loads (value := loadedWord s) (immOffset_word_eq s imm5 rb) rfl
  case byteReg => exact thumbLoad_loads (value := readMem s .byte) reg (byte _)
  case byteImm => exact thumbLoad_loads (value := readMem s .byte) (immOffset_byte_eq s imm5 rb) (byte _)
  case signedByte => exact thumbLoad_loads (value := fun a => sext (fld 0 8 (readMem s .byte a))) reg (signed _)
  case halfReg => exact half_ends (value := readMem s .half) reg rfl rfl
  case halfImm => exact half_ends (value := readMem s .half) (immOffset_half_eq s imm5 rb) rfl rfl
  case signedHalf => exact half_ends (value := fun a => sext (fld 0 16 (readMem s .half a))) reg rfl rfl

/-- Settles O57: every form is `thumbStore_ends` at its address, the halfword forms under `thumbHalf_ends`. -/
theorem thumbStores : Obligations.ThumbStores := by
  intro ro rb rd imm5 imm8 s hwf x o v ends half
  have reg : regOffset s ro rb = x + o := regOffset_eq s ro rb
  have stores {z : Size} {addr a : Word} (ha : addr = a) := thumbStore_ends (rd := rd) (z := z) ha hwf
  have half_ends {i : Instr} {addr a : Word} (ha : addr = a)
      (hi : exec i s = thumbHalf addr (thumbStore .half addr rd s)) : half i a := by
    simp only [half, ends, hi]
    exact thumbHalf_ends (goesOn := fun r => (_ → Completes r _) ∧ (_ → Completes r _)) ha (stores ha)
  refine ⟨?reg, ?imm, ?sp, ?byteReg, ?byteImm, ?halfReg, ?halfImm⟩
  case reg => exact stores reg
  case imm => exact stores (immOffset_word_eq s imm5 rb)
  case sp => exact stores (spOffset_eq s imm8)
  case byteReg => exact stores reg
  case byteImm => exact stores (immOffset_byte_eq s imm5 rb)
  case halfReg => exact half_ends reg rfl
  case halfImm => exact half_ends (immOffset_half_eq s imm5 rb) rfl

/-- Settles O58: PUSH and STMIA are `thumbBlockStore_storesMany`, LDMIA and POP without r15 `thumbBlockLoad_loadsMany`; POP with
r15, the last of its list, ends as LDM (1) (`loadsMany_branchTo`). -/
theorem thumbMultiples : Obligations.ThumbMultiples := by
  intro r rb list s sp b regs size pushed bytes v
  have nodup : regs.Nodup := nodup_listedRegs list (by decide)
  have noPc : (15 : Reg) ∉ regs := pc_notMem_listedRegs list (by decide)
  have noSp : (13 : Reg) ∉ regs := notMem_listedRegs_low (by decide)
  have short : regs.length ≤ 2 ^ 30 := length_listedRegs_le list (by decide)
  have somePushed : r = true ∨ list ≠ 0 → pushed ≠ [] := by
    rintro (rfl | hl) e
    · exact List.cons_ne_nil _ _ (List.append_eq_nil_iff.mp e).2
    · exact listedRegs_ne_nil (by decide) hl (List.append_eq_nil_iff.mp e).1
  refine ⟨?empty, ?emptyBlock, ?push, ?pop, ?stmia, ?ldmia, ?listedBase⟩
  case empty =>
    rintro ⟨rfl, rfl⟩
    exact ⟨rfl, rfl⟩
  case emptyBlock =>
    rintro rfl
    exact ⟨rfl, rfl⟩
  case push =>
    intro named hwf hok
    rw [exec_tPush (somePushed named)]
    exact thumbBlockStore_storesMany hwf ((List.length_map _).trans_le (length_pushRegs_le r list)) (by decide) hok
  case stmia =>
    intro hl hwf words hok
    rw [exec_tStmia hl]
    exact thumbBlockStore_storesMany hwf ((List.length_map _).trans_le short) (lowReg_ne_pc rb) hok
  case ldmia =>
    intro hl unlisted hok
    rw [exec_tLdmia hl unlisted]
    refine thumbBlockLoad_loadsMany _ nodup noPc (lowReg_ne_pc rb) (fun hm => ?_) hok
    exact Bool.false_ne_true (unlisted.symm.trans (lowReg_mem_listedRegs.mp hm))
  case listedBase =>
    intro listed
    have hl : list ≠ 0 := by
      rintro rfl
      simp at listed
    exact (if_neg hl).trans (if_pos listed)
  case pop =>
    intro named hok
    refine ⟨?sequential, ?branches, ?disabled, ?misaligned⟩
    case sequential =>
      rintro rfl
      have count : pushed.length = regs.length := congrArg List.length (List.append_nil regs)
      have moved : bytes = size := congrArg (fun n => BitVec.ofNat 32 (4 * n)) count
      rw [exec_tPop_sequential (named.resolve_left Bool.false_ne_true), moved]
      exact thumbBlockLoad_loadsMany _ nodup noPc (by decide) noSp (count ▸ hok)
    case branches =>
      rintro rfl hpin hv
      rw [← popped_pins list s] at hpin
      refine ⟨_, (exec_tPop_pc hok).trans (loadPc_next hpin hv), ?_⟩
      rw [popped_cpsr]
      exact loadsMany_branchTo _ _ nodup noPc fun _ _ => ⟨by decide, noSp⟩
    case disabled =>
      rintro rfl hpin
      exact (exec_tPop_pc hok).trans (loadPc_disLTBit (popped_pins list s ▸ hpin))
    case misaligned =>
      rintro rfl hpin hv
      exact (exec_tPop_pc hok).trans (loadPc_misaligned (popped_pins list s ▸ hpin) hv)
end

/-! Exception entry (60_exceptions.md R555, R560): the banks that the entered mode owns, and the CPSR it leaves bit by bit. -/

namespace Sys2Proof.Machine

/-! The banks (10_state.md R31, R34, R36). -/

/-- How far the own r8 to r12 of a mode lie from those of User mode. -/
def fiqBank (m : ModeBits) : Nat := if m = modeFiq then 7 else 0

/-- How far the own r13 and r14 of a mode lie from those of User mode. -/
def stackBank (m : ModeBits) : Nat :=
  if m = modeFiq then 7 else if m = modeIrq then 9 else if m = modeSvc then 11 else if m = modeAbt then 13
  else if m = modeUnd then 15 else 0

theorem toNat_le_of_ne_pc {n : Reg} (hn : n ≠ 15) : n.toNat ≤ 14 := by
  have : n.toNat ≠ 15 := fun h => hn (BitVec.eq_of_toNat_eq h)
  omega

theorem bankIndex_eq_add (m : ModeBits) {n : Reg} (hn : n ≠ 15) : bankIndex m n =
    n.toNat + if n.toNat ≤ 7 then 0 else if n.toNat ≤ 12 then fiqBank m else stackBank m := by
  have below := toNat_le_of_ne_pc hn
  unfold bankIndex fiqBank stackBank
  by_cases fiq : m = modeFiq
  · simp only [fiq, true_and, if_true]
    split_ifs <;> omega
  · simp only [fiq, false_and, if_false]
    split_ifs <;> omega

theorem fiqBank_mem (m : ModeBits) : fiqBank m = 0 ∨ fiqBank m = 7 := by
  unfold fiqBank
  split_ifs <;> decide

theorem stackBank_mem (m : ModeBits) : stackBank m ∈ [0, 7, 9, 11, 13, 15] := by
  unfold stackBank
  split_ifs <;> decide

/-- r8 to r12 are one copy in all modes but FIQ. -/
theorem fiqBank_eq_iff : ∀ m m' : ModeBits, fiqBank m = fiqBank m' ↔ (m = 0b10001 ↔ m' = 0b10001) := by
  decide

/-- Only User and System mode share r13 and r14. -/
theorem stackBank_eq_iff : ∀ m m' : ModeBits, legalMode m = true → legalMode m' = true →
    (stackBank m = stackBank m' ↔ m = m' ∨ ((m = 0b10000 ∨ m = 0b11111) ∧ (m' = 0b10000 ∨ m' = 0b11111))) := by
  decide

/-- Two names for one register of the file. The offsets of the banks are so far apart that no two classes of registers
overlap. -/
theorem bankIndex_eq_iff {m m' : ModeBits} {n n' : Reg} (hm : legalMode m = true) (hm' : legalMode m' = true)
    (hn : n ≠ 15) (hn' : n' ≠ 15) : bankIndex m n = bankIndex m' n' ↔
      n = n' ∧ (n.toNat ≤ 7 ∨ (8 ≤ n.toNat ∧ n.toNat ≤ 12 ∧ (m = 0b10001 ↔ m' = 0b10001)) ∨
        (13 ≤ n.toNat ∧ (m = m' ∨ ((m = 0b10000 ∨ m = 0b11111) ∧ (m' = 0b10000 ∨ m' = 0b11111))))) := by
  have below := toNat_le_of_ne_pc hn
  have below' := toNat_le_of_ne_pc hn'
  have fiq := fiqBank_mem m
  have fiq' := fiqBank_mem m'
  have stack := stackBank_mem m
  have stack' := stackBank_mem m'
  simp only [List.mem_cons, List.not_mem_nil, or_false] at stack stack'
  rw [← stackBank_eq_iff m m' hm hm', ← fiqBank_eq_iff, bankIndex_eq_add m hn, bankIndex_eq_add m' hn',
    ← BitVec.toNat_inj (x := n)]
  split_ifs <;> omega

/-! The CPSR on entry (R560). -/

section
variable {i : Nat}

theorem flag_setM (p : Word) (m : ModeBits) (hi : i < 32) : flag i (setM p m) = if i < 5 then flag i m else flag i p := by
  have mask : flag i (0xFFFFFFE0 : Word) = decide (5 ≤ i) := by
    revert i
    decide
  have merged : flag i (setM p m) = ((flag i p && flag i (0xFFFFFFE0 : Word)) || flag i m) := by
    simp [setM, flag, hi]
  rw [merged, mask]
  split
  · rw [decide_eq_false (by omega), Bool.and_false, Bool.false_or]
  · rw [decide_eq_true (by omega), flag_eq_of_ge i m (by omega), Bool.and_true, Bool.or_false]

/-- Bit by bit: F set on Reset and FIQ, I set, T clear, the mode, and the rest as before. -/
theorem flag_entryCpsr (e : Exception) (old : Word) (hi : i < 32) : flag i (entryCpsr e old) =
    if i = 6 ∧ (e = .reset ∨ e = .fiq) then true else if i = 7 then true else if i = 5 then false
    else if i < 5 then flag i e.entryMode else flag i old := by
  have others : flag i (setBit (setBit (setM old e.entryMode) 5 false) 7 true) =
      if i = 7 then true else if i = 5 then false else if i < 5 then flag i e.entryMode else flag i old := by
    rw [flag_setBit _ _ _ _ hi, flag_setBit _ _ _ _ hi, flag_setM _ _ hi]
    simp only [eq_comm]
  unfold entryCpsr
  by_cases h : e = .reset ∨ e = .fiq
  · simp only [h, if_true, and_true]
    rw [flag_setBit _ _ _ _ hi, others]
    simp only [eq_comm]
  · simp only [h, if_false, and_false]
    exact others

end

theorem psrM_entryCpsr (e : Exception) (old : Word) : psrM (entryCpsr e old) = e.entryMode :=
  (fld_eq_iff 0 5 _ _).mpr fun i hi => by
    rw [flag_entryCpsr e old (by omega), if_neg (by omega), if_neg (by omega), if_neg (by omega), if_pos (by omega),
      Nat.zero_add]

theorem psrI_entryCpsr (e : Exception) (old : Word) : psrI (entryCpsr e old) = true := flag_entryCpsr e old (by decide)

theorem psrF_entryCpsr (e : Exception) (old : Word) :
    psrF (entryCpsr e old) = if e = .reset ∨ e = .fiq then true else psrF old := by
  refine (flag_entryCpsr e old (by decide)).trans ?_
  simp only [true_and]
  rfl

theorem enters_exception (e : Exception) (link : Word) (s : State) : Enters s e link (takeException e link s) :=
  enters_takeException e link s e.entryMode_privileged.1 e.entryMode_privileged.2

theorem completes_exception (e : Exception) (link : Word) (s : State) :
    Completes (.next (takeException e link s)) (Enters s e link) := ⟨_, rfl, enters_exception e link s⟩

/-! BKPT (R564, R615). -/

theorem breakpoint_enters {s : State} (h : s.pins.dbgEn = false ∨ s.dbg.monitorMode = true) :
    Completes (breakpoint s) (Enters s .prefetchAbort (s.pc + 4)) := by
  have aborts : ¬ (s.pins.dbgEn && !s.dbg.monitorMode) = true := by
    rcases h with h | h <;> simp [h]
  rw [breakpoint, if_neg aborts]
  exact completes_exception _ _ s

theorem breakpoint_halts {s : State} (hd : s.pins.dbgEn = true) (hm : s.dbg.monitorMode = false) :
    breakpoint s = .fault .debugState := if_pos (by rw [hd, hm]; rfl)

end Sys2Proof.Machine

section
open Sys2Proof Sys2Proof.Machine

/-- Settles O10: the banks by `bankIndex_eq_iff`; entry by its frame (`enters_exception`) and the bits of the CPSR
(`flag_entryCpsr`). -/
theorem exceptionEntrySavesAndVectors : Obligations.ExceptionEntrySavesAndVectors := by
  refine ⟨fun m m' n n' v s hm hm' hn hn' => ?_, fun e link s he => ?_⟩
  · intro user oneCopy
    have same : bankIndex m n = bankIndex m' n' ↔ oneCopy := bankIndex_eq_iff hm hm' hn hn'
    refine ⟨same, fun h => ⟨?_, ?_⟩, fun h => ?_⟩
    · rw [regAt_setRegAt _ _ _ _ _ _ hn, if_pos (same.mpr h)]
    · simp only [regAt, same.mpr h]
    · exact regAt_setRegAt_other _ _ _ _ _ _ fun e => h (same.mp e.symm)
  · rw [takeException_cpsr, takeException_pc]
    refine ⟨enters_exception e link s, ?mode, psrT_entryCpsr e _, psrI_entryCpsr e _, ?fiq, fun k hk hi => ?rest, ?vector⟩
    case mode =>
      rw [psrM_entryCpsr]
      cases e <;> rfl
    case fiq =>
      rw [psrF_entryCpsr]
      simp only [he, false_or]
    case rest =>
      rw [flag_entryCpsr e _ hi, if_neg (by omega), if_neg (by omega), if_neg (by omega), if_neg (by omega)]
    case vector =>
      refine congrArg (vectorBase s + ·) ?_
      cases e <;> rfl

/-- Settles O11: each is one exception entry, whose link is the pc plus the length. -/
theorem swiAndUndefinedSpacesTakeTheirExceptions : Obligations.SwiAndUndefinedSpacesTakeTheirExceptions := by
  intro s
  have undefined : Completes (.next (undefinedTrap 2 s)) (Enters s .undefined (s.pc + 2)) := completes_exception _ _ s
  exact ⟨fun c imm24 hc => (completes_exception .swi _ s).whenPassed hc, fun imm8 => completes_exception .swi _ s,
    fun c high low hc => (completes_exception .undefined _ s).whenPassed hc, fun _ => undefined, fun _ => undefined,
    fun _ => undefined⟩

/-- Settles O12: AL always passes, and both forms are then `breakpoint`. -/
theorem bkptIsAPrefetchAbort : Obligations.BkptIsAPrefetchAbort := by
  intro s
  have form (hi : BitVec 12) (lo : BitVec 4) : exec (.bkpt .al hi lo) s = breakpoint s := rfl
  refine ⟨fun h => ⟨fun hi lo => ?_, fun _ => breakpoint_enters h⟩,
    fun hd hm => ⟨fun hi lo => ?_, fun _ => breakpoint_halts hd hm⟩, fun c hi lo hal hc => ?_⟩
  · exact form hi lo ▸ breakpoint_enters h
  · exact (form hi lo).trans (breakpoint_halts hd hm)
  · exact (whenPassed_of_passed hc _).trans (if_neg hal)

end

/-! The instruction boundary (60_exceptions.md R620): one lemma for each thing that comes before the instruction at the PC,
and when a fetch is stale (20_memory.md R116, R117). -/

namespace Sys2Proof.Machine

/-! Stale fetches. -/

section
variable {s : State} {x addr : Word}

theorem writeMem_stale (z : Size) (addr v : Word) (s : State) : (writeMem z addr v s).stale =
    if s.pins.unifiedMemory then
      s.stale ++ changedInWindow s s.mem (writeMem z addr v s).mem (z.align addr) z.bytes
    else s.stale := rfl

theorem inFetchWindow_iff : inFetchWindow s x = true ↔
    (if thumb s then 2 else 4) ≤ (x - s.pc).toNat ∧ (x - s.pc).toNat < 5 * if thumb s then 2 else 4 := by
  simp only [inFetchWindow, Bool.and_eq_true, decide_eq_true_iff]

theorem mem_changedInWindow {old new : List Host.Cell} {n : Nat} : x ∈ changedInWindow s old new addr n ↔
    (∃ k, k < n ∧ x = addr + BitVec.ofNat 32 k) ∧ inFetchWindow s x = true ∧
      memGet new x.toNat ≠ memGet old x.toNat := by
  simp only [changedInWindow, List.mem_filter, List.mem_map, List.mem_range, Bool.and_eq_true, bne_iff_ne, ne_comm,
    eq_comm (a := x)]

/-- A store (R117). -/
theorem mem_stale_writeMem {z : Size} {v : Word} : x ∈ (writeMem z addr v s).stale ↔ x ∈ s.stale ∨
    (s.pins.unifiedMemory = true ∧ x ∈ changedInWindow s s.mem (writeMem z addr v s).mem (z.align addr) z.bytes) := by
  rw [writeMem_stale]
  cases s.pins.unifiedMemory <;> simp

theorem mem_staleByte {value : Byte} : x ∈ staleByte addr value s ↔ x ∈ s.stale ∨
    (x = addr ∧ (x - s.pc).toNat < 5 * fetchLength s ∧ memGet (fetchMem s) addr.toNat ≠ value) := by
  unfold staleByte
  split
  case isTrue changed =>
    rw [Bool.and_eq_true, bne_iff_ne, decide_eq_true_iff] at changed
    obtain ⟨differ, near⟩ := changed
    rw [List.mem_append, List.mem_singleton]
    refine or_congr_right ⟨?_, And.left⟩
    rintro rfl
    exact ⟨rfl, near, differ⟩
  case isFalse same =>
    rw [Bool.and_eq_true, bne_iff_ne, decide_eq_true_iff] at same
    refine (or_iff_left ?_).symm
    rintro ⟨rfl, near, differ⟩
    exact same ⟨differ, near⟩

/-- The memory system changes a byte (R117). -/
theorem mem_stale_changeByte {value : Byte} : x ∈ (changeByte addr value s).stale ↔ x ∈ s.stale ∨
    (s.pins.unifiedMemory = true ∧ x = addr ∧ (x - s.pc).toNat < 5 * fetchLength s ∧
      memGet s.mem addr.toNat ≠ value) := by
  have stale : (changeByte addr value s).stale = if s.pins.unifiedMemory then staleByte addr value s else s.stale := rfl
  cases unified : s.pins.unifiedMemory with
  | false => simp [stale, unified]
  | true => rw [stale, if_pos unified, mem_staleByte, fetchMem, if_pos unified, eq_self_iff_true, true_and]

theorem staleInstr_iff : staleInstr s = true ↔
    ∃ k, k < (if thumb s then 2 else 4) ∧ s.pc + BitVec.ofNat 32 k ∈ s.stale := by
  simp only [staleInstr, fetchLength, List.any_eq_true, List.mem_range, List.contains_iff_mem]

end

/-! The fetch of the instruction at the PC (R602, R604, R607, R612). -/

section
variable {s : State}

theorem fetchAnswer_abort (h : platformAborts s (fetchAccess s) = true) : fetchAnswer s = .abort := if_pos h

/-- A breakpoint or a caught vector. -/
theorem fetchAnswer_hit (h : platformAborts s (fetchAccess s) = false)
    (hit : debugMatch s (fetchAccess s) (instrBus s) = .hit ∨
      (debugMatch s (fetchAccess s) (instrBus s) = .none ∧ vectorCaught s = true)) :
    fetchAnswer s = if s.dbg.monitorMode then .debugAbort else .debugState := by
  rw [fetchAnswer, h]
  rcases hit with e | ⟨e, caught⟩
  · rw [e]
    rfl
  · rw [e, caught]
    rfl

theorem fetchAnswer_unsupported (h : platformAborts s (fetchAccess s) = false)
    (e : debugMatch s (fetchAccess s) (instrBus s) = .unsupported) : fetchAnswer s = .unsupported := by
  rw [fetchAnswer, h, e]
  rfl

theorem fetchAnswer_ok (h : platformAborts s (fetchAccess s) = false)
    (e : debugMatch s (fetchAccess s) (instrBus s) = .none) (uncaught : vectorCaught s = false) :
    fetchAnswer s = .ok := by
  rw [fetchAnswer, h, e, uncaught]
  rfl

theorem fetchAndRun_abort (h : fetchAnswer s = .abort) : fetchAndRun s = .next (prefetchAbort (prefetched s)) := by
  rw [fetchAndRun, h]

/-- DbgAbt is set by the entry, which leaves the other debug registers as they are: it may as well be set before. -/
theorem fetchAndRun_debugAbort (h : fetchAnswer s = .debugAbort) :
    fetchAndRun s = .next (prefetchAbort (setDbgAbt true (fetched s))) := by
  rw [fetchAndRun, h]
  rfl

theorem fetchAndRun_debugState (h : fetchAnswer s = .debugState) : fetchAndRun s = .fault .debugState := by
  rw [fetchAndRun, h]

theorem fetchAndRun_unsupported (h : fetchAnswer s = .unsupported) : fetchAndRun s = .refused .debugUnsupported := by
  rw [fetchAndRun, h]

theorem fetchAndRun_stale (h : fetchAnswer s = .ok) (hs : staleInstr s = true) :
    fetchAndRun s = .refused .stalePrefetch := by
  rw [fetchAndRun, h]
  exact if_pos hs

theorem fetchAndRun_runs (h : fetchAnswer s = .ok) (hs : staleInstr s = false) :
    fetchAndRun s = runInstr (fetchInstr s) (fetched s) := by
  rw [fetchAndRun, h]
  exact if_neg (Bool.eq_false_iff.mp hs)

end

/-! Running the instruction (R346, R351, R394). -/

section
variable {s : State} {i : Instr}

theorem runInstr_hazard (hz : s.userBankHazard = true) (ht : touchesBanked s i = true) :
    runInstr i s = .refused .userBankHazard := if_pos (by rw [hz, ht]; rfl)

theorem runInstr_untouched (hz : s.userBankHazard = true) (ht : touchesBanked s i = false) :
    runInstr i s = exec i { s with userBankHazard := busyWaits s i, vectorEntered := none } := by
  rw [runInstr, hz, ht]
  rfl

theorem runInstr_plain (hz : s.userBankHazard = false) :
    runInstr i s = exec i { s with vectorEntered := none } := by
  rw [runInstr, hz]
  rfl

end

/-! The boundary. -/

/-- A debug request (R610). -/
def debugRequested (s : State) : Bool := s.pins.dbgEn && (s.lines.edbgrq || s.dbg.request)

/-- An FIQ that is asserted, enabled and reaches the core (R579, R611). -/
def fiqPending (s : State) : Bool := !s.lines.nFIQ && !psrF s.cpsr && !(s.pins.dbgEn && s.dbg.intDis)

/-- The same of an IRQ (R580, R611). -/
def irqPending (s : State) : Bool := !s.lines.nIRQ && !psrI s.cpsr && !(s.pins.dbgEn && s.dbg.intDis)

section
variable {s s' : State}

theorem step_eq_boundary (h : takeInputs s = .next s') : step s = boundary s' := by
  rw [step, h]

theorem boundary_illegal (hm : legalMode (mode s) = false) : boundary s = .fault .unrecoverableMode :=
  if_pos (by rw [hm]; rfl)

/-- With a legal mode in the CPSR the rest of the boundary is one chain (R43, R620). -/
theorem boundary_legal (hm : legalMode (mode s) = true) : boundary s =
    if s.pcWrapped then .refused .sequentialWrap
    else if debugRequested s then .fault .debugState
    else if fiqPending s then .next (takeFiq (prefetched s))
    else if irqPending s then .next (takeIrq (prefetched s))
    else fetchAndRun s := if_neg (by rw [hm]; exact Bool.false_ne_true)

theorem boundary_wrapped (hm : legalMode (mode s) = true) (hw : s.pcWrapped = true) :
    boundary s = .refused .sequentialWrap := by
  rw [boundary_legal hm, hw]
  rfl

theorem boundary_request (hm : legalMode (mode s) = true) (hw : s.pcWrapped = false) (hr : debugRequested s = true) :
    boundary s = .fault .debugState := by
  rw [boundary_legal hm, hw, hr]
  rfl

theorem boundary_fiq (hm : legalMode (mode s) = true) (hw : s.pcWrapped = false) (hr : debugRequested s = false)
    (hf : fiqPending s = true) : boundary s = .next (takeFiq (prefetched s)) := by
  rw [boundary_legal hm, hw, hr, hf]
  rfl

theorem boundary_irq (hm : legalMode (mode s) = true) (hw : s.pcWrapped = false) (hr : debugRequested s = false)
    (hf : fiqPending s = false) (hi : irqPending s = true) : boundary s = .next (takeIrq (prefetched s)) := by
  rw [boundary_legal hm, hw, hr, hf, hi]
  rfl

theorem boundary_fetches (hm : legalMode (mode s) = true) (hw : s.pcWrapped = false) (hr : debugRequested s = false)
    (hf : fiqPending s = false) (hi : irqPending s = false) : boundary s = fetchAndRun s := by
  rw [boundary_legal hm, hw, hr, hf, hi]
  rfl

end

end Sys2Proof.Machine

section
open Sys2Proof Sys2Proof.Machine

/-- Settles O9: the definitions of a wrapped pc and a stale fetch, then the chain of `boundary_legal` and, below it, how the
fetch is answered. -/
theorem boundaryTakesInterruptsAndPrefetchAborts : Obligations.BoundaryTakesInterruptsAndPrefetchAborts := by
  refine ⟨by decide, fun _ => rfl, fun n target v e s => ?sequential, fun z addr x v value s => ?stale,
    fun s s' inputs => ?chain⟩
  case sequential =>
    refine ⟨rfl, ?_, rfl, ?_⟩
    · rw [advance_pcWrapped, decide_eq_true_iff]
      omega
    · simp
  case stale =>
    intro len ahead
    refine ⟨?_, mem_stale_changeByte, rfl, staleInstr_iff⟩
    rw [mem_stale_writeMem, mem_changedInWindow, inFetchWindow_iff, and_assoc]
  case chain =>
    intro request inhibited fiq irq breakpoint enters
    have entered (e : Exception) {u : State} (taken : boundary s' = .next (takeException e (s'.pc + 4) u)) : enters e u :=
      ⟨_, (step_eq_boundary inputs).trans taken, enters_exception e _ u⟩
    simp only [step_eq_boundary inputs]
    refine ⟨boundary_illegal, fun legal => ⟨boundary_wrapped legal, fun sequential => ⟨boundary_request legal sequential,
      fun quiet => ⟨fun pending => ?fiq, fun noFiq pending => ?irq, fun noFiq noIrq => ?fetch⟩⟩⟩⟩
    case fiq => exact entered .fiq (boundary_fiq legal sequential quiet pending)
    case irq => exact entered .irq (boundary_irq legal sequential quiet noFiq pending)
    case fetch =>
      have fetches : boundary s' = fetchAndRun s' := boundary_fetches legal sequential quiet noFiq noIrq
      rw [fetches] at entered ⊢
      refine ⟨fun aborts => ?abort, fun answers => ⟨fun hit => ⟨fun monitor => ?monitor, fun halt => ?halt⟩,
        fun unsupported => ?unsupported, fun plain uncaught stale => ?stale⟩⟩
      case abort => exact entered .prefetchAbort (fetchAndRun_abort (fetchAnswer_abort aborts))
      case monitor =>
        exact entered .prefetchAbort (fetchAndRun_debugAbort ((fetchAnswer_hit answers hit).trans (if_pos monitor)))
      case halt =>
        exact fetchAndRun_debugState ((fetchAnswer_hit answers hit).trans (if_neg (Bool.eq_false_iff.mp halt)))
      case unsupported => exact fetchAndRun_unsupported (fetchAnswer_unsupported answers unsupported)
      case stale => exact fetchAndRun_stale (fetchAnswer_ok answers plain uncaught) stale

/-- Settles O8: the registers are those of `namedRegs` and `namesSpsr`, constructor by constructor; with nothing before it the
step is `runInstr` of the fetched instruction, and the fetches change nothing that the hazard looks at. -/
theorem stepRunsTheDecodedInstruction : Obligations.StepRunsTheDecodedInstruction := by
  refine ⟨fun i s => ?names, fun s s' i inputs legal sequential quiet noFiq noIrq answered fresh decoded => ?runs⟩
  case names =>
    intro shifted regs spsr
    have named : regs i = namedRegs i := by
      cases i <;> rfl
    have saved : spsr i = namesSpsr i := by
      cases i <;> rfl
    rw [named, saved, touchesBanked, Bool.and_eq_true, Bool.or_eq_true, List.any_eq_true]
    simp only [bankedReg, decide_eq_true_iff]
  case runs =>
    have noRequest : debugRequested s' = false := by
      cases enabled : s'.pins.dbgEn with
      | false => rw [debugRequested, enabled, Bool.false_and]
      | true =>
        obtain ⟨line, control⟩ := quiet enabled
        rw [debugRequested, line, control, Bool.or_false, Bool.and_false]
    have notPending {line disabled : Bool} (h : line = true ∨ disabled = true ∨
        (s'.pins.dbgEn = true ∧ s'.dbg.intDis = true)) :
        (!line && !disabled && !(s'.pins.dbgEn && s'.dbg.intDis)) = false := by
      rcases h with h | h | ⟨h, h'⟩
      · rw [h]; rfl
      · rw [h, Bool.not_true, Bool.and_false, Bool.false_and]
      · rw [h, h', Bool.and_self, Bool.not_true, Bool.and_false]
    have runs : step s = runInstr i (fetched s') := by
      rw [step_eq_boundary inputs, boundary_fetches legal sequential noRequest (notPending noFiq) (notPending noIrq),
        fetchAndRun_runs answered fresh, decoded]
      rfl
    rw [runs]
    exact ⟨fun hz => runInstr_plain hz, fun hz touches => runInstr_hazard hz touches,
      fun hz untouched => runInstr_untouched hz untouched⟩

end

/-! User mode (60_exceptions.md R591): the mode, I, F and the SPSRs are what an instruction leaves alone unless it enters an
exception. -/

namespace Sys2Proof.Machine

/-! What a CPSR write keeps. -/

/-- I, F and the mode are as before; T, bit 5, and bits 31:8 may differ. -/
def ControlBitsKept (p q : Word) : Prop := ∀ i, i < 8 → i ≠ 5 → flag i q = flag i p

section
variable (p : Word)

theorem controlBitsKept_setNZCV (n z c v : Bool) : ControlBitsKept p (setNZCV p n z c v) := fun i hi _ => by
  rw [flag_setNZCV _ _ _ _ _ (by omega), if_neg (by omega), if_neg (by omega), if_neg (by omega), if_neg (by omega)]

theorem controlBitsKept_setNZC (n z c : Bool) : ControlBitsKept p (setNZC p n z c) := fun i hi _ => by
  rw [flag_setNZC _ _ _ _ (by omega), if_neg (by omega), if_neg (by omega), if_neg (by omega)]

theorem controlBitsKept_setNZ (n z : Bool) : ControlBitsKept p (setNZ p n z) := fun i hi _ => by
  rw [flag_setNZ _ _ _ (by omega), if_neg (by omega), if_neg (by omega)]

theorem controlBitsKept_stickyQ (o : Bool) : ControlBitsKept p (stickyQ p o) := fun i hi _ => by
  rw [flag_stickyQ _ _ (by omega), if_neg (by omega)]

theorem controlBitsKept_setResultNZ (v : Word) : ControlBitsKept p (setResultNZ p v) := controlBitsKept_setNZ _ _ _

theorem controlBitsKept_setLogical (v : Word) (c : Bool) : ControlBitsKept p (setLogical p v c) :=
  controlBitsKept_setNZC _ _ _ _

theorem controlBitsKept_setArithmetic (r : AluResult) : ControlBitsKept p (setArithmetic p r) :=
  controlBitsKept_setNZCV _ _ _ _ _

theorem controlBitsKept_setBit_five (b : Bool) : ControlBitsKept p (setBit p 5 b) := fun i hi h => by
  rw [flag_setBit _ _ _ _ (by omega), if_neg (Ne.symm h)]

/-- The flags of an instruction that sets them, or the CPSR as it was. -/
theorem controlBitsKept_ite (sf : Bool) {q : Word} (h : ControlBitsKept p q) : ControlBitsKept p (if sf then q else p) := by
  cases sf
  · exact fun _ _ _ => rfl
  · exact h

/-- In User mode MSR writes no bit below 24 (R372). -/
theorem controlBitsKept_cpsrBits {s : State} (hu : mode s = modeUser) (operand : Word) (mask : BitVec 4) :
    ControlBitsKept p (mergePsr p operand (cpsrBits s mask)) := fun i hi _ => by
  have notWritten : flag i (cpsrBits s mask) = false := by
    rw [flag_cpsrBits s mask (by omega), hu, bne_self_eq_false, Bool.false_or, decide_eq_false (by omega), Bool.and_false]
  rw [flag_mergePsr _ _ _ (by omega), notWritten]
  rfl

end

/-- The mode, I, F and every SPSR are as before. -/
structure ControlKept (s t : State) : Prop where
  bits : ControlBitsKept s.cpsr t.cpsr
  spsrs : SpsrsKept s t

section
variable {s t u : State}

theorem ControlKept.refl (s : State) : ControlKept s s := ⟨fun _ _ _ => rfl, ⟨rfl, rfl, rfl, rfl, rfl⟩⟩

theorem ControlKept.mode (h : ControlKept s t) : mode t = mode s :=
  (fld_eq_iff 0 5 _ _).mpr fun i hi => by
    rw [Nat.zero_add, h.bits i (by omega) (by omega)]
    exact ((flag_fld_of_lt 0 5 i s.cpsr hi).trans (by rw [Nat.zero_add])).symm

/-- An update of neither the CPSR nor an SPSR. -/
theorem controlKept_congr (hc : u.cpsr = t.cpsr) (h1 : u.spsrFiq = t.spsrFiq) (h2 : u.spsrIrq = t.spsrIrq)
    (h3 : u.spsrSvc = t.spsrSvc) (h4 : u.spsrAbt = t.spsrAbt) (h5 : u.spsrUnd = t.spsrUnd) :
    ControlKept s u ↔ ControlKept s t := by
  constructor
  · rintro ⟨b, fiq, irq, svc, abt, und⟩
    exact ⟨hc ▸ b, h1 ▸ fiq, h2 ▸ irq, h3 ▸ svc, h4 ▸ abt, h5 ▸ und⟩
  · rintro ⟨b, fiq, irq, svc, abt, und⟩
    exact ⟨hc ▸ b, h1.trans fiq, h2.trans irq, h3.trans svc, h4.trans abt, h5.trans und⟩

@[simp] theorem controlKept_setReg (n : Reg) (v : Word) : ControlKept s (setReg n v t) ↔ ControlKept s t :=
  controlKept_congr (by simp) (by simp) (by simp) (by simp) (by simp) (by simp)
@[simp] theorem controlKept_advance (n : Word) : ControlKept s (advance n t) ↔ ControlKept s t :=
  controlKept_congr rfl rfl rfl rfl rfl rfl
@[simp] theorem controlKept_branchTo (a : Word) : ControlKept s (branchTo a t) ↔ ControlKept s t :=
  controlKept_congr rfl rfl rfl rfl rfl rfl
@[simp] theorem controlKept_latched (a : Access) (v : Word) : ControlKept s (latched a v t) ↔ ControlKept s t :=
  controlKept_congr rfl rfl rfl rfl rfl rfl
@[simp] theorem controlKept_copDone (cp : BitVec 4) (r : List CopMessage) : ControlKept s (copDone cp r t) ↔ ControlKept s t :=
  controlKept_congr rfl rfl rfl rfl rfl rfl
@[simp] theorem controlKept_perform (a : Access) (v : Word) : ControlKept s (perform a v t) ↔ ControlKept s t :=
  controlKept_congr (by simp) (by simp) (by simp) (by simp) (by simp) (by simp)
@[simp] theorem controlKept_setRegPair (hi lo : Reg) (v : BitVec 64) : ControlKept s (setRegPair hi lo v t) ↔ ControlKept s t :=
  (controlKept_setReg lo _).trans (controlKept_setReg hi _)

theorem WritesRegsOnly.controlKept {f : State → State} (hf : WritesRegsOnly f) : ControlKept s (f t) ↔ ControlKept s t := by
  obtain ⟨r, e⟩ := hf t
  rw [e]
  exact controlKept_congr rfl rfl rfl rfl rfl rfl

theorem ControlKept.setCpsr (h : ControlKept s t) {f : Word} (hf : ControlBitsKept s.cpsr f) :
    ControlKept s (Machine.setCpsr f t) :=
  ⟨hf, h.spsrs.fiq, h.spsrs.irq, h.spsrs.svc, h.spsrs.abt, h.spsrs.und⟩

theorem ControlKept.setT (h : ControlKept s t) (b : Bool) : ControlKept s (Machine.setT b t) :=
  h.setCpsr fun i hi hT => (controlBitsKept_setBit_five t.cpsr b i hi hT).trans (h.bits i hi hT)

/-- An optional base write-back. -/
theorem ControlKept.ite_setReg (h : ControlKept s t) (w : Bool) (n : Reg) (v : Word) :
    ControlKept s (if w then setReg n v t else t) := by
  cases w
  · exact h
  · exact (controlKept_setReg n v).mpr h

end

/-! What a meaning answers. -/

/-- A next state, if the answer is one, has entered an exception or keeps the mode, I, F and the SPSRs of `s`. -/
def StaysUser (s : State) (r : Result) : Prop := ∀ t, r = .next t → t.vectorEntered ≠ none ∨ ControlKept s t

section
variable {s t : State} {r : Result}

theorem ControlKept.staysUser (h : ControlKept s t) : StaysUser s (.next t) := fun _ ht =>
  .inr (Host.Outcome.next.inj ht ▸ h)

theorem staysUser_of_entered (h : t.vectorEntered ≠ none) : StaysUser s (.next t) := fun _ ht =>
  .inl (Host.Outcome.next.inj ht ▸ h)

theorem staysUser_fault (f : Fault) : StaysUser s (.fault f) := fun _ h => nomatch h

theorem staysUser_refused (e : Refusal) : StaysUser s (.refused e) := fun _ h => nomatch h

theorem staysUser_exception (e : Exception) (link : Word) (u : State) : StaysUser s (.next (takeException e link u)) :=
  staysUser_of_entered (by simp)

theorem staysUser_ite {c : Prop} [Decidable c] {r' : Result} (h : StaysUser s r) (h' : StaysUser s r') :
    StaysUser s (if c then r else r') := by
  split
  · exact h
  · exact h'

/-- A refused form answers no state. -/
theorem staysUser_unless {c : Prop} [Decidable c] {e : Refusal} (h : StaysUser s r) :
    StaysUser s (if c then .refused e else r) := staysUser_ite (staysUser_refused e) h

theorem whenPassed_staysUser {c : Cond} (h : StaysUser s r) : StaysUser s (whenPassed c s r) :=
  staysUser_ite h ((controlKept_advance 4).mpr (.refl s)).staysUser

/-- Writing a register and advancing. -/
theorem ControlKept.setReg_advance (h : ControlKept s t) (len : Word) (n : Reg) (v : Word) :
    StaysUser s (.next (advance len (setReg n v t))) := ControlKept.staysUser (by simpa using h)

/-! Writes to the PC. -/

theorem ControlKept.branchExchange (h : ControlKept s t) (a : Word) : StaysUser s (branchExchange a t) :=
  staysUser_unless ((controlKept_branchTo _).mpr (h.setT _)).staysUser

theorem ControlKept.loadPc (h : ControlKept s t) (v : Word) : StaysUser s (loadPc v t) :=
  staysUser_unless (h.branchExchange v)

theorem jumpArm_staysUser (a : Word) : StaysUser s (jumpArm a s) :=
  staysUser_ite ((controlKept_branchTo a).mpr (.refl s)).staysUser (staysUser_refused _)

/-- User mode has no SPSR to return through (R585). -/
theorem exceptionReturn_staysUser (hu : mode t = modeUser) (v : Word) : StaysUser s (exceptionReturn v t) := by
  rw [exceptionReturn_noSpsr (.inl hu)]
  exact staysUser_refused _

/-! Data processing, multiplies and status registers. -/

theorem controlBitsKept_logical (s : State) (v : Word) (b : Shifted) : ControlBitsKept s.cpsr (logical s v b).2 :=
  controlBitsKept_setLogical _ _ _

theorem controlBitsKept_arithmetic (s : State) (r : AluResult) : ControlBitsKept s.cpsr (arithmetic s r).2 :=
  controlBitsKept_setArithmetic _ _

theorem dataOp_staysUser (hu : mode s = modeUser) {f : Shifted → Word × Word} (hf : ∀ b, ControlBitsKept s.cpsr (f b).2)
    {c : Cond} {sf ok : Bool} {regs : List Reg} {rd : Reg} {op2 : Operand2} :
    StaysUser s (dataOp c sf ok regs rd op2 s f) := by
  refine whenPassed_staysUser (staysUser_unless (staysUser_unless (staysUser_ite
    (staysUser_ite (exceptionReturn_staysUser hu _) (jumpArm_staysUser _)) (ControlKept.staysUser ?_))))
  rw [controlKept_advance]
  exact ((controlKept_setReg rd _).mpr (.refl s)).setCpsr (controlBitsKept_ite _ sf (hf _))

theorem compareOp_staysUser {f : Shifted → Word} (hf : ∀ b, ControlBitsKept s.cpsr (f b)) {c : Cond} {ok : Bool} {rn : Reg}
    {op2 : Operand2} : StaysUser s (compareOp c ok rn op2 s f) :=
  whenPassed_staysUser (staysUser_unless (staysUser_unless
    ((controlKept_advance 4).mpr ((ControlKept.refl s).setCpsr (hf _))).staysUser))

theorem compareOp_arithmetic_staysUser (sum : Shifted → AluResult) {c : Cond} {ok : Bool} {rn : Reg} {op2 : Operand2} :
    StaysUser s (compareOp c ok rn op2 s fun b => (arithmetic s (sum b)).2) :=
  compareOp_staysUser fun b => controlBitsKept_arithmetic s (sum b)

theorem multiplyOp_staysUser {u : State} (h : ControlKept s u) {c : Cond} {ok : Bool} {regs : List Reg} {clash : Bool} :
    StaysUser s (multiplyOp c ok regs clash s u) :=
  whenPassed_staysUser (staysUser_unless (staysUser_unless ((controlKept_advance 4).mpr h).staysUser))

theorem controlKept_finishMul (sf : Bool) (rd : Reg) (v : Word) : ControlKept s (finishMul sf rd v s) :=
  ((controlKept_setReg rd v).mpr (.refl s)).setCpsr (controlBitsKept_ite _ sf (controlBitsKept_setResultNZ _ _))

theorem controlKept_finishMulLong (sf : Bool) (hi lo : Reg) (v : BitVec 64) : ControlKept s (finishMulLong sf hi lo v s) :=
  ((controlKept_setRegPair hi lo v).mpr (.refl s)).setCpsr (controlBitsKept_ite _ sf (controlBitsKept_setNZ _ _ _))

theorem controlKept_finishSat (rd : Reg) (x : Int) (earlier : Bool) : ControlKept s (finishSat rd x earlier s) :=
  ((controlKept_setReg rd _).mpr (.refl s)).setCpsr (controlBitsKept_stickyQ _ _)

theorem controlKept_finishAcc (rd : Reg) (x : Int) : ControlKept s (finishAcc rd x s) :=
  ((controlKept_setReg rd _).mpr (.refl s)).setCpsr (controlBitsKept_stickyQ _ _)

theorem execMrs_staysUser (c : Cond) (r : Bool) (sbo : BitVec 4) (rd : Reg) (z1 z2 : BitVec 4) :
    StaysUser s (execMrs c r sbo rd z1 z2 s) := by
  have write : ∀ v, StaysUser s (.next (advance 4 (setReg rd v s))) := (ControlKept.refl s).setReg_advance 4 rd
  refine whenPassed_staysUser (staysUser_unless (staysUser_unless (staysUser_ite ?_ (write _))))
  split
  · exact staysUser_refused _
  · exact write _

/-- MSR in User mode: there is no SPSR, and of the CPSR the flags byte only is written (R372). -/
theorem msrOp_staysUser (hu : mode s = modeUser) (r : Bool) (mask : BitVec 4) (operand : Word) :
    StaysUser s (msrOp r mask operand s) := by
  by_cases fields : mask = 0
  · rw [fields, msrOp_noFields]
    exact staysUser_refused _
  cases r with
  | true =>
    rw [msrOp_noSpsr fields (spsr_eq_none (.inl hu))]
    exact staysUser_refused _
  | false =>
    rw [msrOp_cpsr fields]
    refine staysUser_ite (ControlKept.staysUser ?_) (staysUser_refused _)
    rw [controlKept_advance]
    exact (ControlKept.refl s).setCpsr (controlBitsKept_cpsrBits _ hu operand mask)

theorem breakpoint_staysUser : StaysUser s (breakpoint s) :=
  staysUser_ite (staysUser_fault _) (staysUser_exception _ _ _)

theorem execClz_staysUser (c : Cond) (sbo1 : BitVec 4) (rd : Reg) (sbo2 : BitVec 4) (rm : Reg) :
    StaysUser s (execClz c sbo1 rd sbo2 rm s) :=
  whenPassed_staysUser (staysUser_unless (staysUser_unless ((ControlKept.refl s).setReg_advance 4 rd _)))

/-! Data accesses. -/

/-- An access goes on where it is answered, and enters Data Abort or answers no state where it is not. -/
theorem guarded_staysUser {u : State} {a : Access} {v : Word} {complete : State → State} {k : State → Result}
    (hk : StaysUser s (k (latched a v u))) : StaysUser s (guarded u a v complete k) := by
  unfold guarded
  dsimp only
  split
  · exact hk
  · exact hk
  · exact staysUser_exception _ _ _
  · exact staysUser_of_entered (by simp [dataAbort])
  · exact staysUser_fault _
  · exact staysUser_refused _

theorem loadTo_staysUser {len : Word} {base : State → State} (hb : WritesRegsOnly base) {a : Access} {rd : Reg} {v : Word} :
    StaysUser s (loadTo len a rd v base s) := by
  refine guarded_staysUser (ControlKept.setReg_advance ?_ len rd v)
  rw [hb.controlKept, controlKept_latched]
  exact .refl s

theorem storeFrom_staysUser {len : Word} {base : State → State} (hb : WritesRegsOnly base) {a : Access} {v : Word} :
    StaysUser s (storeFrom len a v base s) := by
  refine guarded_staysUser (ControlKept.staysUser ?_)
  rw [controlKept_advance, hb.controlKept, controlKept_perform, controlKept_latched]
  exact .refl s

/-- A load that passes its condition and its register checks. -/
theorem armLoad_staysUser {c : Cond} {P : Prop} [Decidable P] {e : Refusal} {a : Access} {rd : Reg} {v : Word} {idx : Index}
    {u : Bool} {rn : Reg} {o : Word} :
    StaysUser s (whenPassed c s (if P then .refused e else loadTo 4 a rd v (singleBase s idx u rn o) s)) :=
  whenPassed_staysUser (staysUser_unless (loadTo_staysUser (writesRegsOnly_singleBase s idx u rn o)))

/-- A store that does. -/
theorem armStore_staysUser {c : Cond} {P : Prop} [Decidable P] {e : Refusal} {a : Access} {v : Word} {idx : Index}
    {u : Bool} {rn : Reg} {o : Word} :
    StaysUser s (whenPassed c s (if P then .refused e else storeFrom 4 a v (singleBase s idx u rn o) s)) :=
  whenPassed_staysUser (staysUser_unless (storeFrom_staysUser (writesRegsOnly_singleBase s idx u rn o)))

theorem execLdr_staysUser (c : Cond) (u : Bool) (idx : Index) (rn rd : Reg) (off : Offset2) :
    StaysUser s (execLdr c u idx rn rd off s) := by
  have hb := writesRegsOnly_singleBase s idx u rn (offset2 s off)
  refine whenPassed_staysUser (staysUser_unless (staysUser_ite
    (staysUser_ite (guarded_staysUser (ControlKept.loadPc ?_ _)) (staysUser_refused _)) (loadTo_staysUser hb)))
  rw [hb.controlKept, controlKept_latched]
  exact .refl s

theorem mode3_staysUser {r : Result} (hr : StaysUser s r) {c : Cond} {idx : Index} {rn rd : Reg} {off : Offset3}
    {aligned : Bool} : StaysUser s (mode3 c idx rn rd off aligned s r) :=
  whenPassed_staysUser (staysUser_unless (staysUser_unless (staysUser_unless hr)))

/-- A load of mode 3. -/
theorem mode3_load_staysUser {c : Cond} {idx idx' : Index} {rn rn' rd rd' : Reg} {off : Offset3} {aligned u : Bool}
    {a : Access} {v o : Word} :
    StaysUser s (mode3 c idx rn rd off aligned s (loadTo 4 a rd' v (singleBase s idx' u rn' o) s)) :=
  mode3_staysUser (loadTo_staysUser (writesRegsOnly_singleBase s idx' u rn' o))

theorem execStrh_staysUser (c : Cond) (u : Bool) (idx : Index) (rn rd : Reg) (off : Offset3) :
    StaysUser s (execStrh c u idx rn rd off s) :=
  mode3_staysUser (storeFrom_staysUser (writesRegsOnly_singleBase _ _ _ _ _))

theorem swapOp_staysUser {c : Cond} {z : Size} {rn rd : Reg} {sbz : BitVec 4} {rm : Reg} {old : Word} :
    StaysUser s (swapOp c z rn rd sbz rm old s) := by
  refine whenPassed_staysUser (staysUser_unless (staysUser_unless (guarded_staysUser (guarded_staysUser
    (ControlKept.setReg_advance ?_ 4 rd old)))))
  rw [controlKept_perform, controlKept_latched, controlKept_latched]
  exact .refl s

/-! Multiple transfers (44_arm_load_store_multiple.md R342, R344). -/

/-- A sequence of transfers keeps control if all are made, and stops as an instruction may. -/
def Transfer.StaysUser (s : State) : Transfer → Prop
  | .done t => ControlKept s t
  | .stopped r => Machine.StaysUser s r

theorem thenDo_staysUser {x : Transfer} (hx : x.StaysUser s) {k : State → Result}
    (hk : ∀ t, ControlKept s t → StaysUser s (k t)) : StaysUser s (x.thenDo k) := by
  cases x with
  | done t => exact hk t hx
  | stopped r => exact hx

theorem loadList_staysUser {put : Reg → Word → State → State} (restore : State → State)
    (hput : ∀ r v, WritesRegsOnly (put r v)) (regs : List Reg) (a : Word) {t : State} (h : ControlKept s t) :
    (loadList put restore regs a t).StaysUser s := by
  induction regs generalizing a t with
  | nil => exact h
  | cons r rs ih =>
    have go : ∀ v acc, (loadList put restore rs (a + 4) (put r v (latched acc v t))).StaysUser s := fun v acc =>
      ih (a + 4) ((hput r v).controlKept.mpr ((controlKept_latched acc v).mpr h))
    unfold loadList
    dsimp only
    split
    · exact go _ _
    · exact go _ _
    · exact staysUser_exception _ _ _
    · exact staysUser_of_entered (by simp [dataAbort])
    · exact staysUser_fault _
    · exact staysUser_refused _

theorem storeList_staysUser (words : List Word) (a : Word) {t : State} (h : ControlKept s t) :
    (storeList words a t).StaysUser s := by
  induction words generalizing a t with
  | nil => exact h
  | cons v vs ih =>
    have go : ∀ acc, (storeList vs (a + 4) (perform acc v (latched acc v t))).StaysUser s := fun acc =>
      ih (a + 4) (by simpa using h)
    unfold storeList
    dsimp only
    split
    · exact go _
    · exact go _
    · exact staysUser_exception _ _ _
    · exact staysUser_of_entered (by simp [dataAbort])
    · exact staysUser_fault _
    · exact staysUser_refused _

theorem loadList_setReg_staysUser (restore : State → State) (regs : List Reg) (a : Word) :
    (loadList setReg restore regs a s).StaysUser s :=
  loadList_staysUser restore writesRegsOnly_setReg regs a (.refl s)

theorem blockLoad_staysUser {m : BlockMode} {w : Bool} {rn : Reg} {regs : List Reg} {k : Word → State → Result}
    (hk : ∀ v t, ControlKept s t → StaysUser s (k v t)) : StaysUser s (blockLoad m w rn regs s k) :=
  thenDo_staysUser (loadList_setReg_staysUser _ _ _) fun _ ht => hk _ _ (ht.ite_setReg w rn _)

theorem execLdm1_staysUser (c : Cond) (m : BlockMode) (w : Bool) (rn : Reg) (list : BitVec 16) :
    StaysUser s (execLdm1 c m w rn list s) :=
  whenPassed_staysUser (staysUser_unless (staysUser_unless (blockLoad_staysUser fun v _ ht =>
    staysUser_ite (ht.loadPc v) ((controlKept_advance 4).mpr ht).staysUser)))

/-- The end of LDM (2) and STM (2). -/
theorem ControlKept.advance_hazard (h : ControlKept s t) (b : Bool) :
    StaysUser s (.next { advance 4 t with userBankHazard := b }) :=
  ControlKept.staysUser ((controlKept_congr (t := t) (u := { advance 4 t with userBankHazard := b })
    rfl rfl rfl rfl rfl rfl).mpr h)

theorem execLdm2_staysUser (c : Cond) (m : BlockMode) (w : Bool) (rn : Reg) (list : BitVec 15) :
    StaysUser s (execLdm2 c m w rn list s) :=
  whenPassed_staysUser (staysUser_unless (staysUser_unless (thenDo_staysUser
    (loadList_staysUser _ (writesRegsOnly_setRegAt modeUser) _ _ (.refl s)) fun _ ht => ht.advance_hazard true)))

theorem execLdm3_staysUser (hu : mode s = modeUser) (c : Cond) (m : BlockMode) (w : Bool) (rn : Reg) (list : BitVec 15) :
    StaysUser s (execLdm3 c m w rn list s) :=
  whenPassed_staysUser (staysUser_unless (staysUser_unless (blockLoad_staysUser fun v _ ht =>
    exceptionReturn_staysUser (ht.mode.trans hu) v)))

theorem execStm1_staysUser (c : Cond) (m : BlockMode) (w : Bool) (rn : Reg) (list : BitVec 16) :
    StaysUser s (execStm1 c m w rn list s) :=
  whenPassed_staysUser (staysUser_unless (staysUser_unless (thenDo_staysUser (storeList_staysUser _ _ (.refl s)) fun _ ht =>
    ((controlKept_advance 4).mpr (ht.ite_setReg w rn _)).staysUser)))

theorem execStm2_staysUser (c : Cond) (m : BlockMode) (w : Bool) (rn : Reg) (list : BitVec 16) :
    StaysUser s (execStm2 c m w rn list s) :=
  whenPassed_staysUser (staysUser_unless (staysUser_unless (thenDo_staysUser (storeList_staysUser _ _ (.refl s)) fun _ ht =>
    ht.advance_hazard true)))

/-- The end of LDRD and STRD. -/
theorem pair_staysUser {x : Transfer} (hx : x.StaysUser s) {base : State → State} (hb : WritesRegsOnly base) :
    StaysUser s (x.thenDo fun t => .next (advance 4 (base t))) :=
  thenDo_staysUser hx fun _ ht => ((controlKept_advance 4).mpr (hb.controlKept.mpr ht)).staysUser

theorem execLdrd_staysUser (c : Cond) (u : Bool) (idx : Index) (rn rd : Reg) (off : Offset3) :
    StaysUser s (execLdrd c u idx rn rd off s) :=
  mode3_staysUser (staysUser_unless (pair_staysUser (loadList_setReg_staysUser _ _ _) (writesRegsOnly_singleBase _ _ _ _ _)))

theorem execStrd_staysUser (c : Cond) (u : Bool) (idx : Index) (rn rd : Reg) (off : Offset3) :
    StaysUser s (execStrd c u idx rn rd off s) :=
  mode3_staysUser (staysUser_unless (pair_staysUser (storeList_staysUser _ _ (.refl s)) (writesRegsOnly_singleBase _ _ _ _ _)))

/-! Coprocessor instructions (46_arm_coprocessor.md). -/

theorem controlKept_copDone_self (cp : BitVec 4) (r : List CopMessage) : ControlKept s (copDone cp r s) :=
  (controlKept_copDone cp r).mpr (.refl s)

/-- A coprocessor that is absent traps, one that waits leaves everything but its port. -/
theorem copOp_staysUser {cp : BitVec 4} {k : Word → Word → List Word → Result}
    (hk : ∀ first second more, StaysUser s (k first second more)) : StaysUser s (copOp cp s k) := by
  unfold copOp
  split
  · exact staysUser_exception _ _ _
  · exact (controlKept_copDone_self cp []).staysUser
  · exact hk _ _ _

theorem ControlKept.finishMrc (h : ControlKept s t) (hc : t.cpsr = s.cpsr) (rd : Reg) (v : Word) :
    StaysUser s (.next (advance 4 (finishMrc rd v t))) := by
  refine ControlKept.staysUser ((controlKept_advance 4).mpr ?_)
  unfold Machine.finishMrc
  split
  · exact h.setCpsr (hc ▸ controlBitsKept_setNZCV _ _ _ _ _)
  · exact (controlKept_setReg rd v).mpr h

/-- Changing the debug registers. -/
theorem controlKept_dbg (d : DebugUnit) : ControlKept s { s with dbg := d } :=
  (controlKept_congr (t := s) (u := { s with dbg := d }) rfl rfl rfl rfl rfl rfl).mpr (.refl s)

theorem cdpOp_staysUser (cp : BitVec 4) (i : Instr) : StaysUser s (cdpOp cp i s) :=
  staysUser_unless (copOp_staysUser fun _ _ _ => ((controlKept_advance 4).mpr (controlKept_copDone_self cp _)).staysUser)

theorem mcr14_staysUser (op1 : BitVec 3) (crn : BitVec 4) (rd : Reg) (op2 : BitVec 3) (crm : BitVec 4) :
    StaysUser s (mcr14 op1 crn rd op2 crm s) :=
  staysUser_unless (staysUser_unless (staysUser_ite ((controlKept_advance 4).mpr (controlKept_dbg _)).staysUser
    (staysUser_ite ((controlKept_advance 4).mpr (controlKept_dbg _)).staysUser (staysUser_refused _))))

theorem mcrOp_staysUser (op1 : BitVec 3) (crn : BitVec 4) (rd : Reg) (cp : BitVec 4) (op2 : BitVec 3) (crm : BitVec 4)
    (i : Instr) : StaysUser s (mcrOp op1 crn rd cp op2 crm i s) :=
  staysUser_ite (mcr14_staysUser _ _ _ _ _) (copOp_staysUser fun _ _ _ =>
    ((controlKept_advance 4).mpr (controlKept_copDone_self cp _)).staysUser)

theorem mrc14_staysUser (op1 : BitVec 3) (crn : BitVec 4) (rd : Reg) (op2 : BitVec 3) (crm : BitVec 4) :
    StaysUser s (mrc14 op1 crn rd op2 crm s) :=
  staysUser_unless (staysUser_ite ((ControlKept.refl s).finishMrc rfl rd _) (staysUser_ite
    ((controlKept_dbg _).finishMrc rfl rd _) (staysUser_ite ((ControlKept.refl s).finishMrc rfl rd _)
      (staysUser_refused _))))

theorem mrcOp_staysUser (op1 : BitVec 3) (crn : BitVec 4) (rd : Reg) (cp : BitVec 4) (op2 : BitVec 3) (crm : BitVec 4)
    (i : Instr) : StaysUser s (mrcOp op1 crn rd cp op2 crm i s) :=
  staysUser_ite (mrc14_staysUser _ _ _ _ _) (copOp_staysUser fun _ _ _ =>
    (controlKept_copDone_self cp _).finishMrc rfl rd _)

/-- The end of LDC and STC. -/
theorem ControlKept.base5_advance (h : ControlKept s t) (u w : Bool) (rn : Reg) (o : BitVec 8) :
    StaysUser s (.next (advance 4 (base5 u w rn o s t))) :=
  ((controlKept_advance 4).mpr (h.ite_setReg w rn _)).staysUser

theorem ldcOp_staysUser (p u w : Bool) (rn : Reg) (cp : BitVec 4) (o : BitVec 8) (i : Instr) :
    StaysUser s (ldcOp p u w rn cp o i s) :=
  staysUser_unless (staysUser_unless (copOp_staysUser fun _ _ _ => staysUser_unless (thenDo_staysUser
    (loadList_staysUser id (fun _ _ => writesRegsOnly_id) _ _ (controlKept_copDone_self cp _)) fun _ ht =>
      ht.base5_advance u w rn o)))

theorem stcOp_staysUser (p u w : Bool) (rn : Reg) (cp : BitVec 4) (o : BitVec 8) (i : Instr) :
    StaysUser s (stcOp p u w rn cp o i s) :=
  staysUser_unless (staysUser_unless (copOp_staysUser fun _ _ _ => staysUser_unless (thenDo_staysUser
    (storeList_staysUser _ _ (controlKept_copDone_self cp _)) fun _ ht => ht.base5_advance u w rn o)))

theorem execMcrr_staysUser (c : Cond) (rn rd : Reg) (cp opc crm : BitVec 4) : StaysUser s (execMcrr c rn rd cp opc crm s) :=
  whenPassed_staysUser (staysUser_unless (copOp_staysUser fun _ _ _ => staysUser_unless
    ((controlKept_advance 4).mpr (controlKept_copDone_self cp _)).staysUser))

theorem execMrrc_staysUser (c : Cond) (rn rd : Reg) (cp opc crm : BitVec 4) : StaysUser s (execMrrc c rn rd cp opc crm s) :=
  whenPassed_staysUser (staysUser_unless (copOp_staysUser fun _ _ _ => staysUser_unless (staysUser_unless
    (((controlKept_setReg rd _).mpr (controlKept_copDone_self cp _)).setReg_advance 4 rn _))))

/-! Thumb instructions. -/

theorem thumbFlags_staysUser {f : Word} (hf : ControlBitsKept s.cpsr f) : StaysUser s (thumbFlags f s) :=
  ((controlKept_advance 2).mpr ((ControlKept.refl s).setCpsr hf)).staysUser

theorem thumbWrite_staysUser {f : Word} (hf : ControlBitsKept s.cpsr f) (rd : LowReg) (v : Word) :
    StaysUser s (thumbWrite rd v f s) :=
  ((controlKept_advance 2).mpr (((controlKept_setReg (lowReg rd) v).mpr (.refl s)).setCpsr hf)).staysUser

theorem thumbLogical_staysUser (rd : LowReg) (v : Word) : StaysUser s (thumbLogical rd v s) :=
  thumbWrite_staysUser (controlBitsKept_setResultNZ _ _) rd v

theorem thumbShift_staysUser (rd : LowReg) (r : Shifted) : StaysUser s (thumbShift rd r s) :=
  thumbWrite_staysUser (controlBitsKept_setLogical _ _ _) rd _

theorem thumbArithmetic_staysUser (rd : LowReg) (r : AluResult) : StaysUser s (thumbArithmetic rd r s) :=
  thumbWrite_staysUser (controlBitsKept_setArithmetic _ _) rd _

theorem compare_staysUser (r : AluResult) : StaysUser s (thumbFlags (setArithmetic s.cpsr r) s) :=
  thumbFlags_staysUser (controlBitsKept_setArithmetic _ _)

theorem highWrite_staysUser (d : Reg) (v : Word) : StaysUser s (highWrite d v s) :=
  staysUser_ite ((controlKept_branchTo _).mpr (.refl s)).staysUser ((ControlKept.refl s).setReg_advance 2 d v)

theorem thumbLoad_staysUser (z : Size) (a : Word) (rd : LowReg) (v : Word) : StaysUser s (thumbLoad z a rd v s) :=
  loadTo_staysUser writesRegsOnly_id

theorem thumbStore_staysUser (z : Size) (a : Word) (rd : LowReg) : StaysUser s (thumbStore z a rd s) :=
  storeFrom_staysUser writesRegsOnly_id

theorem thumbHalf_staysUser (h : StaysUser s r) (a : Word) : StaysUser s (thumbHalf a r) :=
  staysUser_ite h (staysUser_refused _)

theorem thumbBlockStore_staysUser (base : Reg) (a b : Word) (words : List Word) :
    StaysUser s (thumbBlockStore base a b words s) :=
  thenDo_staysUser (storeList_staysUser words a (.refl s)) fun _ ht => ht.setReg_advance 2 base b

theorem execTPop_staysUser (r : Bool) (list : BitVec 8) : StaysUser s (execTPop r list s) :=
  staysUser_unless (thenDo_staysUser (loadList_setReg_staysUser _ _ _) fun _ ht => staysUser_ite
    (((controlKept_setReg 13 _).mpr ht).loadPc _) (ht.setReg_advance 2 13 _))

theorem execTLdmia_staysUser (rb : LowReg) (list : BitVec 8) : StaysUser s (execTLdmia rb list s) :=
  staysUser_unless (staysUser_unless (thenDo_staysUser (loadList_setReg_staysUser _ _ _) fun _ ht =>
    ht.setReg_advance 2 (lowReg rb) _))

end

/-! Every instruction. -/

theorem exec_staysUser {s : State} (hu : mode s = modeUser) (i : Instr) : StaysUser s (exec i s) := by
  have same := ControlKept.refl s
  have linked (v : Word) : ControlKept s (setReg 14 v s) := (controlKept_setReg 14 v).mpr same
  have branch {t : State} (h : ControlKept s t) (a : Word) : StaysUser s (.next (branchTo a t)) :=
    ((controlKept_branchTo a).mpr h).staysUser
  cases i with
  | unallocUncondCop | unallocUncond => exact staysUser_refused _
  | unallocMulSwp | unallocMisc | unalloc00110 | unallocCop => exact whenPassed_staysUser (staysUser_refused _)
  | undefArm | armSwi => exact whenPassed_staysUser (staysUser_exception _ _ _)
  | tUndef1011 | tUndefDE | tUndef11101 | tSwi => exact staysUser_exception _ _ _
  | bkpt => exact whenPassed_staysUser (staysUser_ite breakpoint_staysUser (staysUser_refused _))
  | tBkpt => exact breakpoint_staysUser
  | nop => exact ((controlKept_advance 4).mpr same).staysUser
  | pld => exact staysUser_unless (staysUser_unless ((controlKept_advance 4).mpr same).staysUser)
  | armAnd | armEor | armOrr | armMov | armBic | armMvn => exact dataOp_staysUser hu fun _ => controlBitsKept_logical _ _ _
  | armSub | armRsb | armAdd | armAdc | armSbc | armRsc => exact dataOp_staysUser hu fun _ => controlBitsKept_arithmetic _ _
  | armTst | armTeq => exact compareOp_staysUser fun _ => controlBitsKept_logical _ _ _
  | armCmp c rn sbz op2 => exact compareOp_arithmetic_staysUser fun b => addWithCarry (armReg s rn) (~~~b.value) true
  | armCmn c rn sbz op2 => exact compareOp_arithmetic_staysUser fun b => addWithCarry (armReg s rn) b.value false
  | clz => exact execClz_staysUser _ _ _ _ _
  | mul | mla => exact multiplyOp_staysUser (controlKept_finishMul _ _ _)
  | umull | umlal | smull | smlal => exact multiplyOp_staysUser (controlKept_finishMulLong _ _ _ _)
  | qadd | qsub | qdadd | qdsub => exact multiplyOp_staysUser (controlKept_finishSat _ _ _)
  | smlaXY | smlawY => exact multiplyOp_staysUser (controlKept_finishAcc _ _)
  | smulwY | smulXY => exact multiplyOp_staysUser ((controlKept_setReg _ _).mpr same)
  | smlalXY => exact multiplyOp_staysUser ((controlKept_setRegPair _ _ _).mpr same)
  | mrs => exact execMrs_staysUser _ _ _ _ _ _
  | msrReg => exact whenPassed_staysUser (staysUser_unless (staysUser_unless (msrOp_staysUser hu _ _ _)))
  | msrImm => exact whenPassed_staysUser (staysUser_unless (msrOp_staysUser hu _ _ _))
  | b => exact whenPassed_staysUser (branch same _)
  | bl => exact whenPassed_staysUser (branch (linked _) _)
  | blxImm => exact branch ((linked _).setT _) _
  | bx => exact whenPassed_staysUser (staysUser_unless (same.branchExchange _))
  | blxReg => exact whenPassed_staysUser (staysUser_unless (staysUser_unless ((linked _).branchExchange _)))
  | ldrt | ldrbt | ldrb => exact armLoad_staysUser
  | strt | strbt | str | strb => exact armStore_staysUser
  | ldr => exact execLdr_staysUser _ _ _ _ _ _
  | ldrh | ldrsb | ldrsh => exact mode3_load_staysUser
  | strh => exact execStrh_staysUser _ _ _ _ _ _
  | ldrd => exact execLdrd_staysUser _ _ _ _ _ _
  | strd => exact execStrd_staysUser _ _ _ _ _ _
  | swp | swpb => exact swapOp_staysUser
  | ldm1 => exact execLdm1_staysUser _ _ _ _ _
  | ldm2 => exact execLdm2_staysUser _ _ _ _ _
  | ldm3 => exact execLdm3_staysUser hu _ _ _ _ _
  | stm1 => exact execStm1_staysUser _ _ _ _ _
  | stm2 => exact execStm2_staysUser _ _ _ _ _
  | cdp => exact whenPassed_staysUser (cdpOp_staysUser _ _)
  | cdp2 => exact cdpOp_staysUser _ _
  | mcr => exact whenPassed_staysUser (mcrOp_staysUser _ _ _ _ _ _ _)
  | mcr2 => exact staysUser_unless (mcrOp_staysUser _ _ _ _ _ _ _)
  | mrc => exact whenPassed_staysUser (mrcOp_staysUser _ _ _ _ _ _ _)
  | mrc2 => exact staysUser_unless (mrcOp_staysUser _ _ _ _ _ _ _)
  | mcrr => exact execMcrr_staysUser _ _ _ _ _ _
  | mrrc => exact execMrrc_staysUser _ _ _ _ _ _
  | ldc => exact whenPassed_staysUser (ldcOp_staysUser _ _ _ _ _ _ _)
  | ldc2 => exact ldcOp_staysUser _ _ _ _ _ _ _
  | stc => exact whenPassed_staysUser (stcOp_staysUser _ _ _ _ _ _ _)
  | stc2 => exact stcOp_staysUser _ _ _ _ _ _ _
  | tLslImm | tLsrImm | tAsrImm | tLslReg | tLsrReg | tAsrReg | tRor => exact thumbShift_staysUser _ _
  | tAddReg | tSubReg | tAddImm3 | tSubImm3 | tAddImm8 | tSubImm8 | tAdc | tSbc | tNeg =>
    exact thumbArithmetic_staysUser _ _
  | tMovImm | tAnd | tEor | tOrr | tBic | tMvn => exact thumbLogical_staysUser _ _
  | tMul => exact staysUser_unless (thumbLogical_staysUser _ _)
  | tCmpImm | tCmpReg | tCmn => exact compare_staysUser _
  | tTst => exact thumbFlags_staysUser (controlBitsKept_setResultNZ _ _)
  | tAddHigh | tMovHigh => exact staysUser_unless (highWrite_staysUser _ _)
  | tCmpHigh => exact staysUser_unless (compare_staysUser _)
  | tBx => exact staysUser_unless (same.branchExchange _)
  | tBlxReg => exact staysUser_unless (staysUser_unless ((linked _).branchExchange _))
  | tLdrPc | tLdrsb | tLdrReg | tLdrbReg | tLdrImm | tLdrbImm | tLdrSp => exact thumbLoad_staysUser _ _ _ _
  | tLdrhReg | tLdrsh | tLdrhImm => exact thumbHalf_staysUser (thumbLoad_staysUser _ _ _ _) _
  | tStrReg | tStrbReg | tStrImm | tStrbImm | tStrSp => exact thumbStore_staysUser _ _ _
  | tStrhReg | tStrhImm => exact thumbHalf_staysUser (thumbStore_staysUser _ _ _) _
  | tAddPc | tAddSp | tIncSp | tDecSp | tBlHigh => exact same.setReg_advance 2 _ _
  | tPush | tStmia => exact staysUser_unless (thumbBlockStore_staysUser _ _ _ _)
  | tPop => exact execTPop_staysUser _ _
  | tLdmia => exact execTLdmia_staysUser _ _
  | tBCond => exact staysUser_ite (branch same _) ((controlKept_advance 2).mpr same).staysUser
  | tB => exact branch same _
  | tBlLow => exact branch (linked _) _
  | tBlxLow => exact branch ((linked _).setT false) _

end Sys2Proof.Machine

section
open Sys2Proof Sys2Proof.Machine

/-- Settles O45: `exec_staysUser`, and the kept bits are those of the mode, I and F. -/
theorem userModeLeavesOnlyByException : Obligations.UserModeLeavesOnlyByException := by
  intro i s t hu _ executed
  refine (exec_staysUser hu i t executed).imp_right fun kept => ?_
  exact ⟨kept.mode.trans hu, kept.bits 7 (by decide) (by decide), kept.bits 6 (by decide) (by decide), kept.spsrs⟩

end
